-- ==== Sys2Proof/Word.lean ====
section
/-! DEFINITION. The word types of the block: every register is a bit vector of a stated width
(00_scope.md R3, 10_state.md R11). -/

namespace Sys2Proof

/-- A byte of the wire, of TXBUF or of a width register. -/
abbrev Byte := BitVec 8

/-- A 16-bit checksum value (00_scope.md section 4: CRC width 16). -/
abbrev Half := BitVec 16

/-- A 32-bit register or command word (10_state.md R11, 30_encoding.md R60). -/
abbrev Word := BitVec 32

end Sys2Proof
end

