-- ==== Sys2Proof/Config.lean ====
section
/-! DEFINITION. What an implementation of the block fixes: the build parameters of 00_scope.md
section 4, and the constants no command changes (10_state.md R29). -/

namespace Sys2Proof

/-- RSP_CRC_SCOPE: which bytes the response checksum covers (00_scope.md R1, 90_conflicts.md C1). -/
inductive RspCrcScope where
  | hdrPayload
  | payloadOnly
deriving DecidableEq, Repr

/-- TIMEOUT_POLICY: what a timed-out response byte does to the verdict (00_scope.md R1,
90_conflicts.md C3). -/
inductive TimeoutPolicy where
  | failAttempt
  | zeroFillCompare
deriving DecidableEq, Repr

/-- The configuration of one built block (00_scope.md R1, R2). No step changes it. RX_DEPTH is at
least 1 (93_implementation_defined.md U7), so its predecessor is what is stored. -/
structure Build where
  rspCrcScope : RspCrcScope
  timeoutPolicy : TimeoutPolicy
  rxDepthLessOne : Nat
deriving DecidableEq, Repr

/-- RX_DEPTH, the number of bytes the stream port's input buffer holds (00_scope.md R2). -/
def Build.rxDepth (b : Build) : Nat := b.rxDepthLessOne + 1

/-- The depth of this hardware's input buffer, less one. OPEN in the spec (00_scope.md R2,
92_eei_decisions.md D31), so nothing is known of it: log 9. -/
opaque Config.rxDepthLessOne : Nat

/-- The parameters of this hardware: HDR_PAYLOAD and FAIL_ATTEMPT (00_scope.md R1). -/
def Config.thisHardware : Build :=
  { rspCrcScope := .hdrPayload
    timeoutPolicy := .failAttempt
    rxDepthLessOne := Config.rxDepthLessOne }

/-- The CRC polynomial x^16 + x^12 + x^5 + 1 without its leading term (00_scope.md section 4). -/
def Config.crcPoly : Half := 0x1021

/-- The CRC initial value (00_scope.md section 4, 41_checksum.md R81 law 1). -/
def Config.crcSeed : Half := 0x0000

/-- MAX_FIELDS, the number of entries of each field table (00_scope.md section 4, R62). -/
def Config.maxFields : Nat := 16

/-- TXBUF_BYTES, the length of the output buffer (00_scope.md section 4, R20). -/
def Config.txbufBytes : Nat := 68

/-- The acknowledgement byte that means success (30_encoding.md R72, 10_state.md R29). -/
def Config.ackSuccess : Byte := 0xFF

/-- One past the last byte offset of the register space (20_memory.md R40, R45). -/
def Config.blockBytes : Nat := 0x1000

end Sys2Proof
end

