-- ==== Sys2Proof/Syntax.lean ====
section
/-! DEFINITION. The command words as syntax (30_encoding.md R61, one constructor per row of
opcode_table.json), the names of the registers (20_memory.md R41), and the assembler lines and
pseudo-instructions of 30_encoding.md part 3. -/

namespace Sys2Proof

/-- The commands of XCRC-CMD version 1 (30_encoding.md R61). -/
inductive Instr where
  /-- CRC.CLR (41_checksum.md R82). -/
  | crcClr
  /-- CRC.FEED b, b the field IMM (41_checksum.md R83). -/
  | crcFeed (b : Byte)
  /-- CRC.FEEDB c, c the field IMM, legal from 0 to 4 (41_checksum.md R84). -/
  | crcFeedb (c : Byte)
  /-- ENC8 (42_codec.md R92). -/
  | enc8
  /-- ENC16 (42_codec.md R93). -/
  | enc16
  /-- ENC32 (42_codec.md R94). -/
  | enc32
  /-- DEC8 (42_codec.md R95). -/
  | dec8
  /-- DEC16 (42_codec.md R96). -/
  | dec16
  /-- DEC32 (42_codec.md R97). -/
  | dec32
  /-- XWR kc, n, n legal from 0 to 16 (43_transport.md R107). -/
  | xwr (kc : Byte) (n : BitVec 5)
  /-- XRD kc, n, n legal from 0 to 16 (43_transport.md R112). -/
  | xrd (kc : Byte) (n : BitVec 5)
deriving DecidableEq, Repr

/-- Why a word is no command (30_encoding.md R66). The block reports one outcome for all of them,
ERR_ILLEGAL; the names are for a reader. -/
inductive IllegalWord where
  /-- RSV is not 000. -/
  | reservedBits
  /-- OPC is not in the table of R61. -/
  | reservedOpcode
  /-- A field the opcode does not use is not zero. -/
  | unusedField
  /-- The lane count of CRC.FEEDB is over 4. -/
  | tooManyLanes
  /-- The field count of XWR or XRD is over 16. -/
  | tooManyFields
deriving DecidableEq, Repr

/-- The registers of the block by name (20_memory.md R41). An index outside the array of a name
stands for no register; `regAt` never answers one. -/
inductive Reg where
  | cmd
  | status
  | cfg
  | crc
  | data
  | bytes
  | errinfo
  | txlen
  | fval (i : Nat)
  | fwid (i : Nat)
  | res (i : Nat)
  /-- TXBUF word m, four bytes of the output buffer. -/
  | txbufWord (m : Nat)
  /-- A reserved offset: reads 0, ignores writes. -/
  | reserved
deriving DecidableEq, Repr

/-- The size of a host access. Only `word` is admitted (20_memory.md R45). -/
inductive AccessSize where
  | byte
  | half
  | word
deriving DecidableEq, Repr

/-- The operations a host performs to run an assembler listing: its register accesses
(30_encoding.md R75) and the loop of `wait` (R76). -/
inductive HostOp where
  /-- `st REG, v`. -/
  | st (r : Reg) (v : Word)
  /-- `ld REG`. -/
  | ld (r : Reg)
  /-- Repeat `ld STATUS` until bit 0 of the value read is 0. -/
  | wait
deriving DecidableEq, Repr

/-- The assembler lines of 30_encoding.md R75 and the pseudo-instructions of R76. -/
inductive Asm where
  /-- A command mnemonic on its own line. -/
  | cmd (i : Instr)
  /-- `.word w`, the raw word, also when illegal. -/
  | word (w : Word)
  /-- `st REG, v`. -/
  | st (r : Reg) (v : Word)
  /-- `ld REG`. -/
  | ld (r : Reg)
  | encU8
  | encU16
  | encI16
  | encU32
  | encI32
  | decU8
  | decU16
  | decU32
  /-- `crc.update b0, ..., bk`. -/
  | crcUpdate (bs : List Byte)
  /-- `crc.value`. -/
  | crcValue
  /-- `crc.reset`. -/
  | crcReset
  /-- `cfg a, t, r`. -/
  | cfg (a t : Byte) (r : Bool)
  /-- `field i, v, w`. -/
  | field (i : Nat) (v w : Word)
  /-- `wait`. -/
  | wait
  /-- `write kc, n`. -/
  | write (kc : Byte) (n : BitVec 5)
  /-- `read kc, n`. -/
  | read (kc : Byte) (n : BitVec 5)
deriving DecidableEq, Repr

end Sys2Proof
end

