-- ==== Sys2Proof/WellFormed.lean ====
section
/-! DEFINITION. The legal field values of a command (30_encoding.md R61, R62, R64). -/

namespace Sys2Proof

/-- The fields of the command hold legal values: a lane count of at most 4 for CRC.FEEDB (R64), a
field count of at most 16 for XWR and XRD (R62). Every other field admits every value. -/
def Instr.wf : Instr → Bool
  | .crcClr => true
  | .crcFeed _ => true
  | .crcFeedb c => c.toNat ≤ 4
  | .enc8 => true
  | .enc16 => true
  | .enc32 => true
  | .dec8 => true
  | .dec16 => true
  | .dec32 => true
  | .xwr _ n => n.toNat ≤ Config.maxFields
  | .xrd _ n => n.toNat ≤ Config.maxFields

end Sys2Proof
end

