-- ==== Sys2Proof/Decode.lean ====
section
/-! DEFINITION. The decoder of a command word, total on every 32-bit word (30_encoding.md R60, R61,
R66, R67), the encoder, and the rows of opcode_table.json. -/

namespace Sys2Proof

/-- Field OPC, bits 31:24 (30_encoding.md R60). -/
def fieldOpc (w : Word) : Byte := w.extractLsb' 24 8

/-- Field KC, bits 23:16 (30_encoding.md R60). -/
def fieldKc (w : Word) : Byte := w.extractLsb' 16 8

/-- Field RSV, bits 15:13 (30_encoding.md R60). -/
def fieldRsv (w : Word) : BitVec 3 := w.extractLsb' 13 3

/-- Field N, bits 12:8 (30_encoding.md R60). -/
def fieldN (w : Word) : BitVec 5 := w.extractLsb' 8 5

/-- Field IMM, bits 7:0 (30_encoding.md R60). -/
def fieldImm (w : Word) : Byte := w.extractLsb' 0 8

/-- A command that uses no field: KC, N and IMM must be zero (30_encoding.md R60, R61). -/
def decodeBare (w : Word) (i : Instr) : Except IllegalWord Instr :=
  if fieldKc w = 0 ∧ fieldN w = 0 ∧ fieldImm w = 0 then .ok i else .error .unusedField

/-- A framed command: any KC, N from 0 to 16, IMM zero (30_encoding.md R61, R62, R63). -/
def decodeFramed (w : Word) (mk : Byte → BitVec 5 → Instr) : Except IllegalWord Instr :=
  if fieldImm w ≠ 0 then .error .unusedField
  else if (fieldN w).toNat ≤ Config.maxFields then .ok (mk (fieldKc w) (fieldN w))
  else .error .tooManyFields

/-- The decoder: the decoding procedure of 30_encoding.md after R67. Every word is one of the eleven
commands or illegal. -/
def decode (w : Word) : Except IllegalWord Instr :=
  if fieldRsv w ≠ 0 then .error .reservedBits
  else if fieldOpc w = 0x01 then decodeBare w .crcClr
  else if fieldOpc w = 0x02 then
    if fieldKc w = 0 ∧ fieldN w = 0 then .ok (.crcFeed (fieldImm w)) else .error .unusedField
  else if fieldOpc w = 0x03 then
    if fieldKc w = 0 ∧ fieldN w = 0 then
      if (fieldImm w).toNat ≤ 4 then .ok (.crcFeedb (fieldImm w)) else .error .tooManyLanes
    else .error .unusedField
  else if fieldOpc w = 0x10 then decodeBare w .enc8
  else if fieldOpc w = 0x11 then decodeBare w .enc16
  else if fieldOpc w = 0x12 then decodeBare w .enc32
  else if fieldOpc w = 0x18 then decodeBare w .dec8
  else if fieldOpc w = 0x19 then decodeBare w .dec16
  else if fieldOpc w = 0x1A then decodeBare w .dec32
  else if fieldOpc w = 0x20 then decodeFramed w .xwr
  else if fieldOpc w = 0x21 then decodeFramed w .xrd
  else .error .reservedOpcode

/-- A command word from its fields, RSV = 000 (30_encoding.md R60). -/
def cmdWord (opc kc : Byte) (n : BitVec 5) (imm : Byte) : Word :=
  opc ++ kc ++ (0#3) ++ n ++ imm

/-- The word of a command (30_encoding.md R61, R75). A term with an illegal field value has the word
that holds that value, which `decode` rejects. -/
def encode : Instr → Word
  | .crcClr => cmdWord 0x01 0 0 0
  | .crcFeed b => cmdWord 0x02 0 0 b
  | .crcFeedb c => cmdWord 0x03 0 0 c
  | .enc8 => cmdWord 0x10 0 0 0
  | .enc16 => cmdWord 0x11 0 0 0
  | .enc32 => cmdWord 0x12 0 0 0
  | .dec8 => cmdWord 0x18 0 0 0
  | .dec16 => cmdWord 0x19 0 0 0
  | .dec32 => cmdWord 0x1A 0 0 0
  | .xwr kc n => cmdWord 0x20 kc n 0
  | .xrd kc n => cmdWord 0x21 kc n 0

/-- The instruction the decoder reads from a row of opcode_table.json of `nbits` bits, bit 0 the least
significant bit of the one 32-bit word; the bits above `nbits` are zero. -/
def decodeTableWord (nbits w : Nat) : Option Instr :=
  if nbits ≤ 32 then (decode (BitVec.ofNat 32 (w % 2 ^ nbits))).toOption else none

/-- The mask of the command's row in opcode_table.json: which bits the row fixes. -/
def Instr.tableMask : Instr → Word
  | .crcClr => 0xFFFFFFFF
  | .crcFeed _ => 0xFFFFFF00
  | .crcFeedb _ => 0xFFFFFF00
  | .enc8 => 0xFFFFFFFF
  | .enc16 => 0xFFFFFFFF
  | .enc32 => 0xFFFFFFFF
  | .dec8 => 0xFFFFFFFF
  | .dec16 => 0xFFFFFFFF
  | .dec32 => 0xFFFFFFFF
  | .xwr _ _ => 0xFF00E0FF
  | .xrd _ _ => 0xFF00E0FF

/-- The match value of the command's row in opcode_table.json: the value of the fixed bits. -/
def Instr.tableMatch : Instr → Word
  | .crcClr => 0x01000000
  | .crcFeed _ => 0x02000000
  | .crcFeedb _ => 0x03000000
  | .enc8 => 0x10000000
  | .enc16 => 0x11000000
  | .enc32 => 0x12000000
  | .dec8 => 0x18000000
  | .dec16 => 0x19000000
  | .dec32 => 0x1A000000
  | .xwr _ _ => 0x20000000
  | .xrd _ _ => 0x21000000

end Sys2Proof
end

