-- ==== Sys2Proof/Machine/State.lean ====
section
/-! DEFINITION. The state of the block (10_state.md), the moves of the outside world, the reasons a
step can stop, and the state after reset (70_reset_and_hazards.md R160). Plain data throughout. -/

namespace Sys2Proof.Machine

/-- The completion codes of STATUS.CODE (60_exceptions.md R141). Codes 6 to 15 are never produced
(93_implementation_defined.md X3), so they are no constructors. -/
inductive Code where
  | ok
  | errIo
  | errConfig
  | errWidth
  | errExhausted
  | errIllegal
deriving DecidableEq, Repr

/-- The fields of STATUS (10_state.md R13). -/
structure Status where
  busy : Bool
  done : Bool
  rvalid : Bool
  ovr : Bool
  code : Code
  attempts : Byte
deriving DecidableEq, Repr

/-- The fields of CFG (10_state.md R15). -/
structure Cfg where
  addr : Byte
  tries : Byte
  ioRetry : Bool
deriving DecidableEq, Repr

/-- The sequencer phase `seq` (10_state.md R24). -/
inductive Phase where
  | idle
  | flush
  | tx
  | ack
  | rxd
  | rxc0
  | rxc1
deriving DecidableEq, Repr

/-- Which transport command runs (10_state.md R25, `op`). -/
inductive Op where
  | xwr
  | xrd
deriving DecidableEq, Repr

/-- Why the last attempt failed (10_state.md R25, `lastfail`). -/
inductive LastFail where
  | none
  | io
  | nack
  | bad
deriving DecidableEq, Repr

/-- The sequencer's phase and loop state (10_state.md R24, R25). -/
structure Sequencer where
  phase : Phase
  op : Op
  kc : Byte
  n : BitVec 5
  k : Byte
  i : BitVec 5
  j : BitVec 3
  stg : Vector Word 16
  rxb : List Byte
  rxcrc : Half
  tof : Bool
  lastfail : LastFail
  lastinfo : Word
deriving DecidableEq, Repr

/-- The setup state of the stream port (10_state.md R27). -/
inductive PortCfg where
  | ready
  | cfgErr (info : Word)
deriving DecidableEq, Repr

/-- The stream port's own state: its input buffer RXQ, head first, and its setup state
(10_state.md R26, R27). -/
structure Port where
  rxq : List Byte
  portcfg : PortCfg
deriving DecidableEq, Repr

/-- One answer of the stream port with the operation it answers, as TXLOG records it
(10_state.md R28, 20_memory.md R52). -/
inductive PortRecord where
  | flushOk
  | flushErr (info : Word)
  /-- A StreamWrite of `bs` answered OK. -/
  | writeOk (bs : List Byte)
  /-- A StreamWrite answered IOERR after the bytes `sent` had been sent. -/
  | writeErr (info : Word) (sent : List Byte)
  | readByte (b : Byte)
  | readTimeout
  | readErr (info : Word)
deriving DecidableEq, Repr

/-- TXLOG: the byte lists put on the wire and the port's answers, both in order (10_state.md R28).
No rule reads it. -/
structure TxLog where
  packets : List (List Byte)
  answers : List PortRecord
deriving DecidableEq, Repr

/-- What the stream port answers to the operation that is outstanding (20_memory.md R49 to R51, log 13).
What the port may choose is in the answer; what its own state decides is not: `ok` to a read is BYTE
when RXQ is not empty and TIMEOUT when it is (log 3). -/
inductive PortAnswer where
  | ok
  /-- IOERR(info). `keep` chooses the sub-list of RXQ that a failed flush leaves, `sent` the number
  of bytes a failed write had sent. The information is any word (log 17). -/
  | ioErr (info : Word) (keep : List Bool) (sent : Nat)
deriving DecidableEq, Repr

/-- A move of the outside world: of the host, the device, the stream port or the platform
(10_state.md R10, log 1). -/
inductive Input where
  /-- The host reads the register at a byte offset (20_memory.md R42). -/
  | hostRead (size : AccessSize) (off : Nat)
  /-- The host writes the register at a byte offset (20_memory.md R43). -/
  | hostWrite (size : AccessSize) (off : Nat) (v : Word)
  /-- The device appends a byte to the input buffer (20_memory.md R48). -/
  | deviceByte (b : Byte)
  /-- The stream port answers the outstanding operation (20_memory.md R49 to R51). -/
  | portAnswer (a : PortAnswer)
  /-- Reset is applied (70_reset_and_hazards.md R160). `sent` is how many bytes of an abandoned
  StreamWrite had been sent, `rxq` the bytes found in the input buffer afterwards (R161). -/
  | reset (sent : Nat) (rxq : List Byte)
deriving DecidableEq, Repr

/-- The state of the machine. The first group is what the host sees (10_state.md R11 to R23), then the
sequencer (R24, R25), the environment (R26 to R28) and the configuration (R29). `inputs` and
`readLog` are the model's own: the moves of the outside world still to come, and the values that host
reads returned, in order. -/
structure State where
  status : Status
  cfg : Cfg
  crc : Half
  data : Word
  bytes : Word
  errinfo : Word
  txlen : BitVec 7
  txbuf : Vector Byte 68
  fval : Vector Word 16
  fwid : Vector Byte 16
  res : Vector Word 16
  sq : Sequencer
  port : Port
  txlog : TxLog
  build : Build
  inputs : List Input
  readLog : List Word
deriving DecidableEq, Repr

/-- Why the machine stops: a host access that the spec does not admit (20_memory.md R45, 00_scope.md
R6: "a model has no step for it"). Stopping is safe: nothing is claimed of what would follow. No
command word and no register value leads here. -/
inductive Fault where
  /-- Raised by a host access at an offset of 0x1000 or more (93_implementation_defined.md N3). Safe. -/
  | outsideBlock (off : Nat)
  /-- Raised by a byte or half-word host access (93_implementation_defined.md N1). Safe. -/
  | subWordAccess (off : Nat)
  /-- Raised by a word access whose offset has bits 1:0 other than 00 (93 N2). Safe. -/
  | misalignedAccess (off : Nat)
deriving DecidableEq, Repr

/-- Why the machine refuses a move. -/
inductive Refusal where
  /-- Raised by `exec` for an instruction that has no meaning yet. No arm does. Safe. -/
  | notModelled (mnemonic : String)
  /-- Raised by an answer of the stream port when no stream operation is outstanding: the port only
  answers operations, and only the sequencer performs them (20_memory.md R52). Safe: log 4. -/
  | noStreamOperation
deriving DecidableEq, Repr

/-- STATUS after reset: 0x00000000 (10_state.md R13, 70_reset_and_hazards.md R160). -/
def Status.atReset : Status :=
  { busy := false, done := false, rvalid := false, ovr := false, code := .ok, attempts := 0 }

/-- CFG after reset: ADDR 0x00, TRIES 1, IORETRY 0 (10_state.md R15, 70_reset_and_hazards.md R160). -/
def Cfg.atReset : Cfg := { addr := 0x00, tries := 0x01, ioRetry := false }

/-- The sequencer after reset (70_reset_and_hazards.md R160). The spec gives `phase`, `k`, `lastfail`
and `lastinfo`. The others are unspecified there: DESIGN CHOICE, unsafe, log 6. -/
def Sequencer.atReset : Sequencer :=
  { phase := .idle
    op := .xwr
    kc := 0
    n := 0
    k := 0
    i := 0
    j := 0
    stg := Vector.replicate 16 0
    rxb := []
    rxcrc := 0
    tof := false
    lastfail := .none
    lastinfo := 0 }

/-- The machine right after reset (70_reset_and_hazards.md R160). The environment is not reset by the
block: an empty input buffer (log 7), a port that is READY (log 8), an empty record, no move of the
outside world pending (log 2). -/
def State.reset : State :=
  { status := Status.atReset
    cfg := Cfg.atReset
    crc := Config.crcSeed
    data := 0
    bytes := 0
    errinfo := 0
    txlen := 0
    txbuf := Vector.replicate 68 0
    fval := Vector.replicate 16 0
    fwid := Vector.replicate 16 0
    res := Vector.replicate 16 0
    sq := Sequencer.atReset
    port := { rxq := [], portcfg := .ready }
    txlog := { packets := [], answers := [] }
    build := Config.thisHardware
    inputs := []
    readLog := [] }

end Sys2Proof.Machine
end

