-- ==== Sys2Proof/Machine/Operands.lean ====
section
/-! DEFINITION. The operands of the commands: the big-endian codec functions (42_codec.md R90, R91), the
byte lanes of BYTES (10_state.md R18), the field tables (R21, R22), and the byte lists of the wire
(30_encoding.md R70, R71). -/

namespace Sys2Proof.Machine

/-- Byte `q` of a word, bits 8q+7:8q. -/
def byteOf (v : Word) (q : Nat) : Byte := v.extractLsb' (8 * q) 8

/-- `be_bytes(v, w)`: the low `w` bytes of `v`, most significant first (42_codec.md R90). The rule
defines it for widths 1, 2 and 4; no other width reaches it in a run (R101, log 16). -/
def beBytes (v : Word) (w : Nat) : List Byte :=
  match w with
  | 1 => [byteOf v 0]
  | 2 => [byteOf v 1, byteOf v 0]
  | 4 => [byteOf v 3, byteOf v 2, byteOf v 1, byteOf v 0]
  | _ => []

/-- `be_join(bs)`: the number whose big-endian bytes are `bs`, zero-extended to 32 bits
(42_codec.md R91). -/
def beJoin (bs : List Byte) : Word :=
  bs.foldl (fun acc b => (acc <<< 8) ||| b.setWidth 32) 0

/-- A word from its four byte lanes, lane 0 in bits 7:0 (10_state.md R18, 20_memory.md R41). -/
def ofLanes (b0 b1 b2 b3 : Byte) : Word := b3 ++ b2 ++ b1 ++ b0

/-- Lane BB[q] of BYTES (10_state.md R18). -/
def lane (s : State) (q : Nat) : Byte := byteOf s.bytes q

/-- The first `c` lanes of BYTES in order, the operand of CRC.FEEDB (41_checksum.md R84) and of the
decodes. -/
def lanes (s : State) (c : Nat) : List Byte := (List.range c).map (lane s)

/-- FVAL[i] (10_state.md R21). -/
def fvalAt (s : State) (i : Nat) : Word := (s.fval[i]?).getD 0

/-- FWID[i] (10_state.md R22). -/
def fwidAt (s : State) (i : Nat) : Byte := (s.fwid[i]?).getD 0

/-- The legal field widths 1, 2 and 4 (30_encoding.md R65). -/
def legalWidth (w : Byte) : Bool := w == 1 || w == 2 || w == 4

/-- The lowest index below `n` whose width is not legal (43_transport.md R101). -/
def firstBadWidth (s : State) (n : Nat) : Option Nat :=
  (List.range n).find? (fun i => !legalWidth (fwidAt s i))

/-- The field bytes of a write request with `n` fields, in the order of the wire (30_encoding.md R70). -/
def payload (s : State) (n : Nat) : List Byte :=
  (List.range n).flatMap (fun i => beBytes (fvalAt s i) (fwidAt s i).toNat)

/-- The valid bytes of the output buffer, `TXBUF[0 .. TXLEN-1]` (10_state.md R20). -/
def request (s : State) : List Byte := s.txbuf.toList.take s.txlen.toNat

/-- Byte `q` of the output buffer (10_state.md R20). -/
def txbufAt (s : State) (q : Nat) : Byte := (s.txbuf[q]?).getD 0

end Sys2Proof.Machine
end

