-- ==== Sys2Proof/Machine/Flags.lean ====
section
/-! DEFINITION. STATUS as the host sees it, and the changes a host access makes to it
(10_state.md R13, R14). The only flags of the block are fields of STATUS (R29). -/

namespace Sys2Proof.Machine

/-- The four bits of a completion code (60_exceptions.md R141). -/
def Code.bits : Code → BitVec 4
  | .ok => 0
  | .errIo => 1
  | .errConfig => 2
  | .errWidth => 3
  | .errExhausted => 4
  | .errIllegal => 5

/-- STATUS as a word: ATTEMPTS 15:8, CODE 7:4, OVR 3, RVALID 2, DONE 1, BUSY 0, the rest 0
(10_state.md R13). -/
def Status.word (t : Status) : Word :=
  (0#16) ++ t.attempts ++ t.code.bits ++ BitVec.ofBool t.ovr ++ BitVec.ofBool t.rvalid
    ++ BitVec.ofBool t.done ++ BitVec.ofBool t.busy

/-- CFG as a word: IORETRY 16, TRIES 15:8, ADDR 7:0, the rest 0 (10_state.md R15). -/
def Cfg.word (c : Cfg) : Word := (0#15) ++ BitVec.ofBool c.ioRetry ++ c.tries ++ c.addr

/-- CFG from a written word; bits 31:17 are ignored (10_state.md R15, 20_memory.md R43). -/
def Cfg.ofWord (v : Word) : Cfg :=
  { addr := v.extractLsb' 0 8, tries := v.extractLsb' 8 8, ioRetry := v.getLsbD 16 }

/-- A host write that arrives while BUSY = 1 is dropped and sets the sticky OVR (10_state.md R14). -/
def dropWrite (s : State) : State := { s with status := { s.status with ovr := true } }

/-- A host write to STATUS: bit 3 clears OVR, every other bit is ignored (10_state.md R13). -/
def writeStatus (v : Word) (s : State) : State :=
  if v.getLsbD 3 then { s with status := { s.status with ovr := false } } else s

end Sys2Proof.Machine
end

