-- ==== Sys2Proof/Machine/Ops.lean ====
section
/-! DEFINITION. The operations that commands share: the checksum fold (41_checksum.md R80), acceptance
and the two ways a command ends (60_exceptions.md R140, R143), the output buffer (43_transport.md
R108), and reset (70_reset_and_hazards.md R160). An error of the block is `raiseErr`: XCRC has no trap
entry and no return from one (60_exceptions.md R147). -/

namespace Sys2Proof.Machine

/-- One of the eight shift steps of the fold (41_checksum.md R80). -/
def crcShift (c : Half) : Half :=
  if c.msb then (c <<< 1) ^^^ Config.crcPoly else c <<< 1

/-- `crc_step(c, b)`: the fold of one byte, most significant bit first (41_checksum.md R80). -/
def crcStep (c : Half) (b : Byte) : Half :=
  Nat.repeat crcShift 8 (c ^^^ (b.setWidth 16 <<< 8))

/-- `crc_bytes(c, bs)`: the fold of a list of bytes in order (00_scope.md section 5). -/
def crcBytes (c : Half) (bs : List Byte) : Half := bs.foldl crcStep c

/-- The acceptance of a command word: the last completion is cleared (60_exceptions.md R140). -/
def accept (s : State) : State :=
  { s with
    status := { s.status with done := false, code := .ok, attempts := 0 }
    errinfo := 0 }

/-- `finish OK` (60_exceptions.md R143). -/
def finishOk (s : State) : State :=
  { s with
    status := { s.status with code := .ok, busy := false, done := true }
    sq := { s.sq with phase := .idle } }

/-- `raise E(info)`: the command ends with a completion code; every change of the steps already done
is kept (60_exceptions.md R143, R146). -/
def raiseErr (e : Code) (info : Word) (s : State) : State :=
  { s with
    status := { s.status with code := e, busy := false, done := true }
    errinfo := info
    sq := { s.sq with phase := .idle } }

/-- A command written to CMD: dropped while BUSY = 1, otherwise accepted and run
(60_exceptions.md R140). -/
def issue (body : State → State) (s : State) : State :=
  if s.status.busy then dropWrite s else body (accept s)

/-- A command word that is illegal: ERR_ILLEGAL with the word as the information, and nothing else
(60_exceptions.md R142). -/
def illegalCommand (w : Word) (s : State) : State := issue (raiseErr .errIllegal w) s

/-- `append(b)`: one byte to the end of the output buffer (43_transport.md R108). -/
def appendTx (b : Byte) (s : State) : State :=
  { s with txbuf := s.txbuf.setIfInBounds s.txlen.toNat b, txlen := s.txlen + 1 }

/-- `emit(b)`: append the byte and fold it into the checksum (43_transport.md R108). -/
def emitTx (b : Byte) (s : State) : State :=
  { appendTx b s with crc := crcStep s.crc b }

/-- `emit` of a list of bytes in order (43_transport.md R108). -/
def emitAll (bs : List Byte) (s : State) : State := bs.foldl (fun t b => emitTx b t) s

/-- The entries below `n` of one array copied over another, `for i in 0 .. n-1: dst[i] <- src[i]`
(43_transport.md R118). -/
def copyBelow (n : Nat) (src dst : Vector Word 16) : Vector Word 16 :=
  match n with
  | 0 => dst
  | m + 1 => (copyBelow m src dst).setIfInBounds m ((src[m]?).getD 0)

/-- Reset of the block: every register and the sequencer take their reset values; the environment,
its record and the configuration are not reached (70_reset_and_hazards.md R160, R161, log 10). -/
def resetBlock (s : State) : State :=
  { State.reset with
    port := s.port
    txlog := s.txlog
    build := s.build
    inputs := s.inputs
    readLog := s.readLog }

/-- The bytes of a StreamWrite that a reset abandons: any first part of them may have been sent
(70_reset_and_hazards.md R160). -/
def abandonedPackets (sent : Nat) (s : State) : List (List Byte) :=
  match s.sq.phase with
  | .tx => [(request s).take sent]
  | _ => []

/-- Reset applied from outside. The input buffer holds any list of at most RX_DEPTH bytes afterwards
(70_reset_and_hazards.md R161, 93_implementation_defined.md U9), which the move says (log 7). -/
def applyReset (sent : Nat) (rxq : List Byte) (s : State) : State :=
  { resetBlock s with
    port := { s.port with rxq := rxq.take s.build.rxDepth }
    txlog := { s.txlog with packets := s.txlog.packets ++ abandonedPackets sent s } }

end Sys2Proof.Machine
end

