-- ==== Sys2Proof/Machine/Checksum.lean ====
section
/-! DEFINITION. The checksum commands (41_checksum.md R82 to R84). -/

namespace Sys2Proof.Machine

/-- CRC.CLR (41_checksum.md R82). -/
def execCrcClr (s : State) : Host.Outcome State Fault Refusal :=
  .next (issue (fun t => finishOk { t with crc := Config.crcSeed }) s)

/-- CRC.FEED b (41_checksum.md R83). -/
def execCrcFeed (b : Byte) (s : State) : Host.Outcome State Fault Refusal :=
  .next (issue (fun t => finishOk { t with crc := crcStep t.crc b }) s)

/-- CRC.FEEDB c (41_checksum.md R84). A count over 4 is an illegal word (30_encoding.md R66): the
decoder never answers it (log 14). -/
def execCrcFeedb (c : Byte) (s : State) : Host.Outcome State Fault Refusal :=
  if (Instr.crcFeedb c).wf then
    .next (issue (fun t => finishOk { t with crc := crcBytes t.crc (lanes t c.toNat) }) s)
  else .next (illegalCommand (encode (.crcFeedb c)) s)

end Sys2Proof.Machine
end

