-- ==== Sys2Proof/Machine/Codec.lean ====
section
/-! DEFINITION. The codec commands between DATA and BYTES (42_codec.md R92 to R97). -/

namespace Sys2Proof.Machine

/-- ENC8: the low byte of DATA in lane 0, the other lanes cleared (42_codec.md R92). -/
def execEnc8 (s : State) : Host.Outcome State Fault Refusal :=
  .next (issue (fun t => finishOk { t with bytes := ofLanes (byteOf t.data 0) 0 0 0 }) s)

/-- ENC16: the low two bytes of DATA, the more significant in lane 0 (42_codec.md R93). -/
def execEnc16 (s : State) : Host.Outcome State Fault Refusal :=
  .next (issue (fun t =>
    finishOk { t with bytes := ofLanes (byteOf t.data 1) (byteOf t.data 0) 0 0 }) s)

/-- ENC32: the four bytes of DATA, the most significant in lane 0 (42_codec.md R94). -/
def execEnc32 (s : State) : Host.Outcome State Fault Refusal :=
  .next (issue (fun t =>
    finishOk { t with
      bytes := ofLanes (byteOf t.data 3) (byteOf t.data 2) (byteOf t.data 1) (byteOf t.data 0) }) s)

/-- DEC8: lane 0, zero-extended (42_codec.md R95). -/
def execDec8 (s : State) : Host.Outcome State Fault Refusal :=
  .next (issue (fun t => finishOk { t with data := beJoin (lanes t 1) }) s)

/-- DEC16: the join of lanes 0 and 1, zero-extended (42_codec.md R96). -/
def execDec16 (s : State) : Host.Outcome State Fault Refusal :=
  .next (issue (fun t => finishOk { t with data := beJoin (lanes t 2) }) s)

/-- DEC32: the join of the four lanes (42_codec.md R97). -/
def execDec32 (s : State) : Host.Outcome State Fault Refusal :=
  .next (issue (fun t => finishOk { t with data := beJoin (lanes t 4) }) s)

end Sys2Proof.Machine
end

