-- ==== Sys2Proof/Machine/Stream.lean ====
section
/-! DEFINITION. The stream port: its three operations as the environment answers them, and the arrival
of device bytes (20_memory.md R48 to R52). Each operation is performed when its answer arrives; the
answer is recorded in TXLOG (10_state.md R28). -/

namespace Sys2Proof.Machine

/-- What a flush or a write answers (20_memory.md R49, R50). -/
inductive DoneOrErr where
  | ok
  | ioErr (info : Word)
deriving DecidableEq, Repr

/-- What a one-byte read answers (20_memory.md R51). -/
inductive ReadResult where
  | byte (b : Byte)
  | timeout
  | ioErr (info : Word)
deriving DecidableEq, Repr

/-- The sub-list of `xs` whose places `keep` marks; a place `keep` does not reach is not kept. -/
def keptBy (keep : List Bool) (xs : List Byte) : List Byte :=
  ((keep.zip xs).filter Prod.fst).map Prod.snd

/-- The answer is recorded with its operation (10_state.md R28, 20_memory.md R52). -/
def recordAnswer (r : PortRecord) (s : State) : State :=
  { s with txlog := { s.txlog with answers := s.txlog.answers ++ [r] } }

/-- The bytes are on the wire, none of them too (10_state.md R28, 20_memory.md R50, log 18). -/
def recordPacket (bs : List Byte) (s : State) : State :=
  { s with txlog := { s.txlog with packets := s.txlog.packets ++ [bs] } }

/-- `StreamFlush()`: OK empties the input buffer, IOERR leaves any sub-list of it (20_memory.md R49). -/
def streamFlush (a : PortAnswer) (s : State) : DoneOrErr × State :=
  match a with
  | .ok => (.ok, recordAnswer .flushOk { s with port := { s.port with rxq := [] } })
  | .ioErr info keep _ =>
    (.ioErr info,
      recordAnswer (.flushErr info) { s with port := { s.port with rxq := keptBy keep s.port.rxq } })

/-- `StreamWrite(bs)`: OK sends the whole list in one transmission, IOERR any first part of it
(20_memory.md R50). -/
def streamWrite (bs : List Byte) (a : PortAnswer) (s : State) : DoneOrErr × State :=
  match a with
  | .ok => (.ok, recordAnswer (.writeOk bs) (recordPacket bs s))
  | .ioErr info _ sent =>
    (.ioErr info, recordAnswer (.writeErr info (bs.take sent)) (recordPacket (bs.take sent) s))

/-- `StreamRead1()`: the head of the input buffer, removed; a timeout only when it is empty; or IOERR,
which changes nothing (20_memory.md R51). -/
def streamRead1 (a : PortAnswer) (s : State) : ReadResult × State :=
  match a with
  | .ioErr info _ _ => (.ioErr info, recordAnswer (.readErr info) s)
  | .ok =>
    match s.port.rxq with
    | [] => (.timeout, recordAnswer .readTimeout s)
    | b :: rest => (.byte b, recordAnswer (.readByte b) { s with port := { s.port with rxq := rest } })

/-- The device appends a byte; it is lost when the buffer holds RX_DEPTH bytes (20_memory.md R48). -/
def deviceArrival (b : Byte) (s : State) : State :=
  if s.port.rxq.length < s.build.rxDepth then
    { s with port := { s.port with rxq := s.port.rxq ++ [b] } }
  else s

end Sys2Proof.Machine
end

