-- ==== Sys2Proof/Machine/Transport.lean ====
section
/-! DEFINITION. The framed transport commands and the retry sequencer (43_transport.md). XWR and XRD are
accepted in one atomic step (R100); every later step runs when the stream port answers the operation
the sequencer waits for (00_scope.md R5, 10_state.md R24, log 19). -/

namespace Sys2Proof.Machine

/-- The end of a command whose every attempt failed (43_transport.md R106). -/
def exhausted (s : State) : State :=
  if s.sq.lastfail = .io then raiseErr .errIo s.sq.lastinfo s
  else raiseErr .errExhausted s.sq.lastinfo s

/-- The start of an attempt, up to the wait for the answer to StreamFlush (43_transport.md R104). -/
def attemptStart (s : State) : State :=
  { s with crc := Config.crcSeed, txlen := 0, sq := { s.sq with tof := false, phase := .flush } }

/-- `next_attempt()`: another attempt, or exhaustion when the budget is spent (43_transport.md R103,
log 20). -/
def nextAttempt (s : State) : State :=
  if s.sq.k = s.cfg.tries then exhausted s
  else
    attemptStart
      { s with
        sq := { s.sq with k := s.sq.k + 1 }
        status := { s.status with attempts := s.sq.k + 1 } }

/-- The current attempt failed for a reason; the next one follows (43_transport.md R105, R107, R112). -/
def failAttempt (why : LastFail) (info : Word) (s : State) : State :=
  nextAttempt { s with sq := { s.sq with lastfail := why, lastinfo := info } }

/-- `io_error(info)`: the command ends at once, or with CFG.IORETRY = 1 the attempt failed
(43_transport.md R105). -/
def ioError (info : Word) (s : State) : State :=
  if s.cfg.ioRetry then failAttempt .io info s
  else raiseErr .errIo info { s with sq := { s.sq with lastfail := .io, lastinfo := info } }

/-- The information of ERR_WIDTH: the index above the width, `(i << 8) | FWID[i]`
(43_transport.md R101). -/
def widthInfo (s : State) (i : Nat) : Word :=
  (BitVec.ofNat 5 i ++ fwidAt s i).setWidth 32

/-- The sequencer's variables at the acceptance of a transport command (43_transport.md R100). -/
def latch (kind : Op) (kc : Byte) (n : BitVec 5) (s : State) : State :=
  { s with
    status := { s.status with rvalid := s.status.rvalid && kind != .xrd }
    sq := { s.sq with op := kind, kc := kc, n := n, k := 0, lastfail := .none, lastinfo := 0 } }

/-- `accept_transport` after the common acceptance: latch, width check, setup check, first attempt
(43_transport.md R100 to R103). -/
def acceptTransport (kind : Op) (kc : Byte) (n : BitVec 5) (s : State) : State :=
  let t := latch kind kc n s
  match firstBadWidth t n.toNat with
  | some i => raiseErr .errWidth (widthInfo t i) t
  | none =>
    match t.port.portcfg with
    | .cfgErr info => raiseErr .errConfig info t
    | .ready => nextAttempt { t with status := { t.status with busy := true } }

/-- `xwr_build()`: the write request, its bytes folded into the checksum and the checksum appended
(43_transport.md R108). -/
def xwrBuild (s : State) : State :=
  let t := emitAll (s.cfg.addr :: s.sq.kc :: payload s s.sq.n.toNat) s
  appendTx (t.crc.extractLsb' 0 8) (appendTx (t.crc.extractLsb' 8 8) t)

/-- `xrd_build()`: the two-byte read request, folded into the checksum under HDR_PAYLOAD only
(43_transport.md R113). -/
def xrdBuild (s : State) : State :=
  { s with
    txbuf := (s.txbuf.setIfInBounds 0 s.cfg.addr).setIfInBounds 1 s.sq.kc
    txlen := 2
    crc := match s.build.rspCrcScope with
      | .hdrPayload => crcBytes Config.crcSeed [s.cfg.addr, s.sq.kc]
      | .payloadOnly => Config.crcSeed }

/-- The request of the running command, built into the output buffer (43_transport.md R107, R112). -/
def buildRequest (s : State) : State :=
  match s.sq.op with
  | .xwr => xwrBuild s
  | .xrd => xrdBuild s

/-- `seq <- phase` (10_state.md R24). -/
def setPhase (p : Phase) (s : State) : State := { s with sq := { s.sq with phase := p } }

/-- The flush is answered: build the request and transmit (43_transport.md R104, R107, R112). -/
def onFlush (a : PortAnswer) (s : State) : State :=
  match streamFlush a s with
  | (.ioErr info, t) => ioError info t
  | (.ok, t) => setPhase .tx (buildRequest t)

/-- The top of the field loop of an XRD: receive field `i`, or the checksum bytes when every field is
in (43_transport.md R112, R115). -/
def startField (i : BitVec 5) (s : State) : State :=
  if i.toNat < s.sq.n.toNat then
    { s with sq := { s.sq with phase := .rxd, i := i, j := 0, rxb := [] } }
  else { s with sq := { s.sq with phase := .rxc0, i := i } }

/-- The write is answered: an XWR waits for the ack, an XRD for its first byte
(43_transport.md R107, R109, R114). -/
def onTx (a : PortAnswer) (s : State) : State :=
  match streamWrite (request s) a s with
  | (.ioErr info, t) => ioError info t
  | (.ok, t) =>
    match t.sq.op with
    | .xwr => setPhase .ack t
    | .xrd => startField 0 t

/-- The ack read is answered: the verdict of an XWR attempt (43_transport.md R107, R110). -/
def onAck (a : PortAnswer) (s : State) : State :=
  match streamRead1 a s with
  | (.byte b, t) =>
    if b = Config.ackSuccess then finishOk t
    else failAttempt .nack (0x00000100 ||| b.setWidth 32) t
  | (.timeout, t) => failAttempt .nack 0x00000200 t
  | (.ioErr info, t) => ioError info t

/-- `read_or_zero()`: a byte, 0x00 with `tof` set at a timeout, or the end of the attempt
(43_transport.md R112). `got` is what the sequencer does with the byte. -/
def readOrZero (got : Byte → State → State) (a : PortAnswer) (s : State) : State :=
  match streamRead1 a s with
  | (.byte b, t) => got b t
  | (.timeout, t) => got 0x00 { t with sq := { t.sq with tof := true } }
  | (.ioErr info, t) => ioError info t

/-- A byte of field `i`: folded into the checksum and kept; the last byte of the field stages its
value (43_transport.md R115). -/
def fieldByte (x : Byte) (s : State) : State :=
  let rxb := s.sq.rxb ++ [x]
  let t := { s with crc := crcStep s.crc x, sq := { s.sq with rxb := rxb, j := s.sq.j + 1 } }
  if s.sq.j.toNat + 1 < (fwidAt s s.sq.i.toNat).toNat then t
  else
    startField (s.sq.i + 1)
      { t with sq := { t.sq with stg := t.sq.stg.setIfInBounds s.sq.i.toNat (beJoin rxb) } }

/-- The high checksum byte of the response (43_transport.md R116); the low byte of `rxcrc` is zero until
it comes (log 12). -/
def crcHighByte (hi : Byte) (s : State) : State :=
  { s with sq := { s.sq with rxcrc := hi ++ (0#8), phase := .rxc1 } }

/-- `verified()` (43_transport.md R117). -/
def verified (s : State) : Bool :=
  s.crc == s.sq.rxcrc && !(s.build.timeoutPolicy == .failAttempt && s.sq.tof)

/-- The verdict of an XRD attempt: every result at once, or the next attempt
(43_transport.md R117 to R119). -/
def verdict (s : State) : State :=
  if verified s then
    finishOk
      { s with
        res := copyBelow s.sq.n.toNat s.sq.stg s.res
        status := { s.status with rvalid := true } }
  else failAttempt .bad (s.sq.rxcrc ++ s.crc) s

/-- The low checksum byte of the response, then the verdict (43_transport.md R116, R117). -/
def crcLowByte (lo : Byte) (s : State) : State :=
  verdict { s with sq := { s.sq with rxcrc := s.sq.rxcrc.extractLsb' 8 8 ++ lo } }

/-- The stream port answers: the sequencer runs to its next stream operation or to the end of the
command (43_transport.md, 00_scope.md R5). In IDLE no operation is outstanding (log 4). -/
def onAnswer (a : PortAnswer) (s : State) : Host.Outcome State Fault Refusal :=
  match s.sq.phase with
  | .idle => .refused .noStreamOperation
  | .flush => .next (onFlush a s)
  | .tx => .next (onTx a s)
  | .ack => .next (onAck a s)
  | .rxd => .next (readOrZero fieldByte a s)
  | .rxc0 => .next (readOrZero crcHighByte a s)
  | .rxc1 => .next (readOrZero crcLowByte a s)

/-- XWR kc, n: the acceptance of a framed write (43_transport.md R100, R107). A count over 16 is an
illegal word (30_encoding.md R66): the decoder never answers it (log 14). -/
def execXwr (kc : Byte) (n : BitVec 5) (s : State) : Host.Outcome State Fault Refusal :=
  if (Instr.xwr kc n).wf then .next (issue (acceptTransport .xwr kc n) s)
  else .next (illegalCommand (encode (.xwr kc n)) s)

/-- XRD kc, n: the acceptance of a framed read (43_transport.md R100, R112). A count over 16 is an
illegal word (30_encoding.md R66): the decoder never answers it (log 14). -/
def execXrd (kc : Byte) (n : BitVec 5) (s : State) : Host.Outcome State Fault Refusal :=
  if (Instr.xrd kc n).wf then .next (issue (acceptTransport .xrd kc n) s)
  else .next (illegalCommand (encode (.xrd kc n)) s)

end Sys2Proof.Machine
end

