-- ==== Sys2Proof/Machine/Dispatch.lean ====
section
/-! DEFINITION. The meaning of each command: what the block does when the host issues it. -/

namespace Sys2Proof.Machine

def exec (i : Instr) (s : State) : Host.Outcome State Fault Refusal :=
  match i with
  | .crcClr => Sys2Proof.Machine.execCrcClr s
  | .crcFeed b => Sys2Proof.Machine.execCrcFeed b s
  | .crcFeedb c => Sys2Proof.Machine.execCrcFeedb c s
  | .enc8 => Sys2Proof.Machine.execEnc8 s
  | .enc16 => Sys2Proof.Machine.execEnc16 s
  | .enc32 => Sys2Proof.Machine.execEnc32 s
  | .dec8 => Sys2Proof.Machine.execDec8 s
  | .dec16 => Sys2Proof.Machine.execDec16 s
  | .dec32 => Sys2Proof.Machine.execDec32 s
  | .xwr kc n => Sys2Proof.Machine.execXwr kc n s
  | .xrd kc n => Sys2Proof.Machine.execXrd kc n s

end Sys2Proof.Machine
end

