-- ==== Sys2Proof/Machine/Bus.lean ====
section
/-! DEFINITION. The host register port (20_memory.md R40 to R46): the register map, register reads and
writes, and which host accesses are admitted. A write to CMD issues a command (60_exceptions.md R140). -/

namespace Sys2Proof.Machine

/-- The register map: which register is at a word-aligned byte offset (20_memory.md R41). -/
def regAt (off : Nat) : Reg :=
  if off = 0x000 then .cmd
  else if off = 0x004 then .status
  else if off = 0x008 then .cfg
  else if off = 0x00C then .crc
  else if off = 0x010 then .data
  else if off = 0x014 then .bytes
  else if off = 0x018 then .errinfo
  else if off = 0x01C then .txlen
  else if off < 0x040 then .reserved
  else if off < 0x080 then .fval ((off - 0x040) / 4)
  else if off < 0x0C0 then .fwid ((off - 0x080) / 4)
  else if off < 0x100 then .res ((off - 0x0C0) / 4)
  else if off < 0x144 then .txbufWord ((off - 0x100) / 4)
  else .reserved

/-- The offset of a register by name (20_memory.md R41); a reserved one stands for the first of them. -/
def regOffset : Reg → Nat
  | .cmd => 0x000
  | .status => 0x004
  | .cfg => 0x008
  | .crc => 0x00C
  | .data => 0x010
  | .bytes => 0x014
  | .errinfo => 0x018
  | .txlen => 0x01C
  | .fval i => 0x040 + 4 * i
  | .fwid i => 0x080 + 4 * i
  | .res i => 0x0C0 + 4 * i
  | .txbufWord m => 0x100 + 4 * m
  | .reserved => 0x020

/-- The 32-bit value of a register; CMD and reserved bits and offsets read 0 (20_memory.md R41, R42,
10_state.md R11 to R23). -/
def readReg (s : State) : Reg → Word
  | .cmd => 0
  | .status => s.status.word
  | .cfg => s.cfg.word
  | .crc => s.crc.setWidth 32
  | .data => s.data
  | .bytes => s.bytes
  | .errinfo => s.errinfo
  | .txlen => s.txlen.setWidth 32
  | .fval i => fvalAt s i
  | .fwid i => (fwidAt s i).setWidth 32
  | .res i => (s.res[i]?).getD 0
  | .txbufWord m =>
    ofLanes (txbufAt s (4 * m)) (txbufAt s (4 * m + 1)) (txbufAt s (4 * m + 2)) (txbufAt s (4 * m + 3))
  | .reserved => 0

/-- `RegRead(off)`: the value at a word-aligned offset within the block (20_memory.md R42). -/
def regRead (s : State) (off : Nat) : Word := readReg s (regAt off)

/-- A command word written to CMD: the command it decodes to, or ERR_ILLEGAL (60_exceptions.md R140,
R142). -/
def writeCmd (w : Word) (s : State) : Host.Outcome State Fault Refusal :=
  match decode w with
  | .ok i => exec i s
  | .error _ => .next (illegalCommand w s)

/-- The effect of a register write that is not dropped (20_memory.md R43). -/
def writeReg (r : Reg) (v : Word) (s : State) : Host.Outcome State Fault Refusal :=
  match r with
  | .cmd => writeCmd v s
  | .status => .next (writeStatus v s)
  | .cfg => .next { s with cfg := Cfg.ofWord v }
  | .data => .next { s with data := v }
  | .bytes => .next { s with bytes := v }
  | .fval i => .next { s with fval := s.fval.setIfInBounds i v }
  | .fwid i => .next { s with fwid := s.fwid.setIfInBounds i (v.extractLsb' 0 8) }
  | .crc => .next s
  | .errinfo => .next s
  | .txlen => .next s
  | .res _ => .next s
  | .txbufWord _ => .next s
  | .reserved => .next s

/-- `RegWrite(off, v)`: dropped while BUSY = 1 unless it is a write to STATUS (20_memory.md R43,
10_state.md R14). -/
def regWrite (off : Nat) (v : Word) (s : State) : Host.Outcome State Fault Refusal :=
  if s.status.busy ∧ regAt off ≠ .status then .next (dropWrite s) else writeReg (regAt off) v s

/-- Why a host access is not admitted, if it is not: outside the block, not a whole word, or not at a
word-aligned offset (20_memory.md R45, log 5). -/
def notAdmitted (size : AccessSize) (off : Nat) : Option Fault :=
  if Config.blockBytes ≤ off then some (.outsideBlock off)
  else if size ≠ .word then some (.subWordAccess off)
  else if off % 4 ≠ 0 then some (.misalignedAccess off)
  else none

/-- A host read: no register changes; the value is what the host sees (20_memory.md R42, R44, R45). -/
def hostRead (size : AccessSize) (off : Nat) (s : State) : Host.Outcome State Fault Refusal :=
  match notAdmitted size off with
  | some f => .fault f
  | none => .next { s with readLog := s.readLog ++ [regRead s off] }

/-- A host write (20_memory.md R43, R45). -/
def hostWrite (size : AccessSize) (off : Nat) (v : Word) (s : State) :
    Host.Outcome State Fault Refusal :=
  match notAdmitted size off with
  | some f => .fault f
  | none => regWrite off v s

/-- One move of the outside world takes effect (10_state.md R10, 20_memory.md R53). -/
def handle (e : Input) (s : State) : Host.Outcome State Fault Refusal :=
  match e with
  | .hostRead size off => hostRead size off s
  | .hostWrite size off v => hostWrite size off v s
  | .deviceByte b => .next (deviceArrival b s)
  | .portAnswer a => onAnswer a s
  | .reset sent rxq => .next (applyReset sent rxq s)

/-- The next move of the outside world, taken off the list, takes effect. With none pending the block
waits: idle for a CMD write (70_reset_and_hazards.md R162), or BUSY for an answer that does not come
(R172). -/
def takeInput (s : State) : Host.Outcome State Fault Refusal :=
  match s.inputs with
  | [] => .next s
  | e :: rest => handle e { s with inputs := rest }

/-- The host write that issues a command word whose bits are `w` (`nbits` of them): the command word
as the next move of the outside world. -/
def issueInput (nbits w : Nat) : Input := .hostWrite .word 0x000 (BitVec.ofNat 32 (w % 2 ^ nbits))

end Sys2Proof.Machine
end

