-- ==== Sys2Proof/Machine/Step.lean ====
section
/-! DEFINITION. One step of the machine, and where a command word stands for the next step to run it.
XCRC fetches nothing (70_reset_and_hazards.md R162): its program is the sequence of words the host
writes to CMD (10_state.md section 4, log 2). -/

namespace Sys2Proof.Machine

/-- One step: the next move of the outside world takes effect, with every atomic step of the sequencer
it lets run (00_scope.md R5, 20_memory.md R53). -/
def step (s : State) : Host.Outcome State Fault Refusal := takeInput s

/-- The state with the host about to write the word to CMD: the very next step runs it (log 2). -/
def State.withFetchWord (s : State) (nbits w : Nat) : State :=
  { s with inputs := issueInput nbits w :: s.inputs }

end Sys2Proof.Machine
end

