-- ==== Sys2Proof/Machine/Assembler.lean ====
section
/-! DEFINITION. The assembler lines and pseudo-instructions as the operations of the host they stand for
(30_encoding.md R75, R76), and a host that runs such a listing beside the block. -/

namespace Sys2Proof.Machine

/-- `st REG, v`: a word write to the register's offset (30_encoding.md R75). -/
def stInput (r : Reg) (v : Word) : Input := .hostWrite .word (regOffset r) v

/-- `ld REG`: a word read of the register's offset (30_encoding.md R75). -/
def ldInput (r : Reg) : Input := .hostRead .word (regOffset r)

/-- A command mnemonic on its own line: `st CMD` of its word (30_encoding.md R75). -/
def cmdOp (i : Instr) : HostOp := .st .cmd (encode i)

/-- The expansion of an assembler line (30_encoding.md R75, R76). -/
def asmExpand : Asm → List HostOp
  | .cmd i => [cmdOp i]
  | .word w => [.st .cmd w]
  | .st r v => [.st r v]
  | .ld r => [.ld r]
  | .encU8 => [cmdOp .enc8]
  | .encU16 => [cmdOp .enc16]
  | .encI16 => [cmdOp .enc16]
  | .encU32 => [cmdOp .enc32]
  | .encI32 => [cmdOp .enc32]
  | .decU8 => [cmdOp .dec8]
  | .decU16 => [cmdOp .dec16]
  | .decU32 => [cmdOp .dec32]
  | .crcUpdate bs => bs.map (fun b => cmdOp (.crcFeed b))
  | .crcValue => [.ld .crc]
  | .crcReset => [cmdOp .crcClr]
  | .cfg a t r => [.st .cfg (Cfg.word { addr := a, tries := t, ioRetry := r })]
  | .field i v w => [.st (.fval i) v, .st (.fwid i) w]
  | .wait => [.wait]
  | .write kc n => [cmdOp (.xwr kc n), .wait]
  | .read kc n => [cmdOp (.xrd kc n), .wait]

/-- A host beside the block, with the operations of its listing still to perform. The listing is the
host's, no state of the block (log 15). -/
structure Hosted where
  listing : List HostOp
  block : State
deriving DecidableEq, Repr

/-- Whose turn it is: the host performs its next operation, or the block takes its next pending move. -/
inductive Turn where
  | host
  | block
deriving DecidableEq, Repr

/-- The host goes on with a listing after the block's step. -/
def resume (listing : List HostOp) (o : Host.Outcome State Fault Refusal) :
    Host.Outcome Hosted Fault Refusal :=
  match o with
  | .next t => .next { listing := listing, block := t }
  | .fault f => .fault f
  | .refused r => .refused r

/-- The block's step on a register access of the host, ahead of its other pending moves. -/
def accessStep (e : Input) (s : State) : Host.Outcome State Fault Refusal :=
  step { s with inputs := e :: s.inputs }

/-- What a `wait` leaves of the listing when it has read STATUS: itself while bit 0 of the value is 1, the
operations after it when bit 0 is 0 (30_encoding.md R76). -/
def afterWait (value : Word) (rest : List HostOp) : List HostOp :=
  if value.getLsbD 0 then .wait :: rest else rest

/-- The host performs its next operation (30_encoding.md R75, R76). With none left it does nothing. -/
def hostTurn (h : Hosted) : Host.Outcome Hosted Fault Refusal :=
  match h.listing with
  | [] => .next h
  | .st r v :: rest => resume rest (accessStep (stInput r v) h.block)
  | .ld r :: rest => resume rest (accessStep (ldInput r) h.block)
  | .wait :: rest =>
    resume (afterWait (regRead h.block (regOffset .status)) rest)
      (accessStep (ldInput .status) h.block)

/-- One turn of the host or of the block. -/
def takeTurn (who : Turn) (h : Hosted) : Host.Outcome Hosted Fault Refusal :=
  match who with
  | .host => hostTurn h
  | .block => resume h.listing (step h.block)

/-- The turns of a run, in their order, up to the first stop. -/
def runHosted (turns : List Turn) (h : Hosted) : Host.Outcome Hosted Fault Refusal :=
  match turns with
  | [] => .next h
  | who :: later =>
    match takeTurn who h with
    | .next t => runHosted later t
    | .fault f => .fault f
    | .refused r => .refused r

end Sys2Proof.Machine
end

