-- ==== Sys2Proof/Safety.lean ====
section
/-! DEFINITION. The terms claims about the block are stated in: the packets of the wire format, the
invariants of a run, the bound on stream operations, and what the host and the environment can see. -/

namespace Sys2Proof.Machine

/-- The words that are illegal, as 30_encoding.md R66 lists them: a reserved OPC, RSV other than 000, a
field the opcode does not use that is not zero, N over 16 for XWR and XRD, IMM over 4 for CRC.FEEDB. -/
def IllegalCommandWord (w : Word) : Prop :=
  let opc := w.extractLsb' 24 8
  let kc := w.extractLsb' 16 8
  let rsv := w.extractLsb' 13 3
  let n := w.extractLsb' 8 5
  let imm := w.extractLsb' 0 8
  opc ∉ ([0x01, 0x02, 0x03, 0x10, 0x11, 0x12, 0x18, 0x19, 0x1A, 0x20, 0x21] : List Byte)
    ∨ rsv ≠ 0
    ∨ (opc ∉ ([0x20, 0x21] : List Byte) ∧ (kc ≠ 0 ∨ n ≠ 0))
    ∨ (opc ∉ ([0x02, 0x03] : List Byte) ∧ imm ≠ 0)
    ∨ (opc ∈ ([0x20, 0x21] : List Byte) ∧ 16 < n.toNat)
    ∨ (opc = 0x03 ∧ 4 < imm.toNat)

/-- The state after a command that completes at its acceptance with OK, before its own effect: the
common completion fields (60_exceptions.md R140, R143). -/
def completedOk (s : State) : State :=
  { s with
    status := { s.status with busy := false, done := true, code := .ok, attempts := 0 }
    errinfo := 0
    sq := { s.sq with phase := .idle } }

/-- The state after a word that completes with ERR_ILLEGAL (60_exceptions.md R142). -/
def completedIllegal (w : Word) (s : State) : State :=
  { s with
    status := { s.status with busy := false, done := true, code := .errIllegal, attempts := 0 }
    errinfo := w
    sq := { s.sq with phase := .idle } }

/-- Every illegal word with this opcode completes with ERR_ILLEGAL and changes nothing else
(30_encoding.md R66, 60_exceptions.md R142). -/
def RejectsIllegalWords (opc : Byte) (s : State) : Prop :=
  ∀ w : Word, w.extractLsb' 24 8 = opc → IllegalCommandWord w →
    writeCmd w s = .next (completedIllegal w s)

/-- The sequencer after the acceptance of a transport command (43_transport.md R100). -/
def latchedSequencer (kind : Op) (kc : Byte) (n : BitVec 5) (s : State) : Sequencer :=
  { s.sq with phase := .idle, op := kind, kc := kc, n := n, k := 0, lastfail := .none, lastinfo := 0 }

/-- The state after a transport command that ends at its acceptance (43_transport.md R100 to R103). -/
def endedAtAcceptance (kind : Op) (kc : Byte) (n : BitVec 5) (e : Code) (info : Word) (s : State) :
    State :=
  { s with
    status :=
      { s.status with
        busy := false
        done := true
        code := e
        attempts := 0
        rvalid := if kind = .xrd then false else s.status.rvalid }
    errinfo := info
    sq := latchedSequencer kind kc n s }

/-- Every width of the first `n` fields is legal (43_transport.md R101). -/
def WidthsLegal (s : State) (n : Nat) : Prop :=
  ∀ i, i < n → fwidAt s i = 1 ∨ fwidAt s i = 2 ∨ fwidAt s i = 4

/-- Σ FWID[i] over the fields from `start` up to `n` (43_transport.md R121). -/
def widthSumFrom (s : State) (start n : Nat) : Nat :=
  ((List.range' start (n - start)).map (fun i => (fwidAt s i).toNat)).sum

/-- Σ FWID[i] over the first `n` fields. -/
def widthSum (s : State) (n : Nat) : Nat := widthSumFrom s 0 n

/-- The bytes of a write request that its checksum covers (30_encoding.md R70). -/
def writeBody (s : State) (kc : Byte) (n : Nat) : List Byte := s.cfg.addr :: kc :: payload s n

/-- The write request: address, code, fields, checksum (30_encoding.md R70). -/
def writeRequest (s : State) (kc : Byte) (n : Nat) : List Byte :=
  let c := crcBytes 0x0000 (writeBody s kc n)
  writeBody s kc n ++ [c.extractLsb' 8 8, c.extractLsb' 0 8]

/-- The read request: address and code (30_encoding.md R71). -/
def readRequest (s : State) (kc : Byte) : List Byte := [s.cfg.addr, kc]

/-- The bytes before the response that its checksum covers (30_encoding.md R73). -/
def responseHeader (s : State) (kc : Byte) : List Byte :=
  match s.build.rspCrcScope with
  | .hdrPayload => [s.cfg.addr, kc]
  | .payloadOnly => []

/-- The response bytes of fields whose values are `vals` (30_encoding.md R73). -/
def responseFields (s : State) (vals : Nat → Word) (n : Nat) : List Byte :=
  (List.range n).flatMap (fun i => beBytes (vals i) (fwidAt s i).toNat)

/-- STG[i] (10_state.md R25). -/
def stgAt (s : State) (i : Nat) : Word := (s.sq.stg[i]?).getD 0

/-- RES[i] (10_state.md R23). -/
def resAt (s : State) (i : Nat) : Word := (s.res[i]?).getD 0

/-- What holds while a transport command runs, in every phase but IDLE (10_state.md R13, R24, R25,
43_transport.md R100 to R104, R115). -/
structure Running (s : State) : Prop where
  fields : s.sq.n.toNat ≤ 16
  widths : WidthsLegal s s.sq.n.toNat
  ready : s.port.portcfg = .ready
  attempts : s.status.attempts = s.sq.k
  started : 1 ≤ s.sq.k.toNat
  budget : s.sq.k.toNat ≤ s.cfg.tries.toNat
  notDone : s.status.done = false
  noCode : s.status.code = .ok
  noInfo : s.errinfo = 0
  invalid : s.sq.op = .xrd → s.status.rvalid = false
  fresh : s.sq.phase = .flush → s.txlen = 0 ∧ s.crc = 0
  ackOp : s.sq.phase = .ack → s.sq.op = .xwr
  rxOp : s.sq.phase = .rxd ∨ s.sq.phase = .rxc0 ∨ s.sq.phase = .rxc1 → s.sq.op = .xrd
  field : s.sq.phase = .rxd →
    s.sq.i.toNat < s.sq.n.toNat ∧ s.sq.j.toNat < (fwidAt s s.sq.i.toNat).toNat
      ∧ s.sq.rxb.length = s.sq.j.toNat

/-- The invariant of every run: BUSY shows the phase (10_state.md R24), the input buffer and the output
buffer keep their bounds (R26, R20), and a running command is as `Running` says. -/
structure State.Inv (s : State) : Prop where
  busyPhase : s.status.busy = true ↔ s.sq.phase ≠ .idle
  rxqBound : s.port.rxq.length ≤ s.build.rxDepth
  txlenBound : s.txlen.toNat ≤ 68
  running : s.sq.phase ≠ .idle → Running s

/-- The bytes of the fields received so far in an XRD attempt, as the staged values give them, then the
bytes of the field being received (43_transport.md R115). -/
def receivedBytes (s : State) (m : Nat) : List Byte :=
  (List.range m).flatMap (fun q => beBytes (stgAt s q) (fwidAt s q).toNat)

/-- What the output buffer and the checksum hold in each phase of an attempt (43_transport.md R108, R111,
R113, R115, R120). -/
structure AttemptBytes (s : State) : Prop where
  writing : (s.sq.phase = .tx ∨ s.sq.phase = .ack) → s.sq.op = .xwr →
    request s = writeRequest s s.sq.kc s.sq.n.toNat
      ∧ s.crc = crcBytes 0x0000 (writeBody s s.sq.kc s.sq.n.toNat)
  asking : s.sq.phase = .tx → s.sq.op = .xrd →
    request s = readRequest s s.sq.kc ∧ s.crc = crcBytes 0x0000 (responseHeader s s.sq.kc)
  receiving : s.sq.phase = .rxd →
    request s = readRequest s s.sq.kc
      ∧ s.crc = crcBytes 0x0000
          (responseHeader s s.sq.kc ++ receivedBytes s s.sq.i.toNat ++ s.sq.rxb)
  checking : (s.sq.phase = .rxc0 ∨ s.sq.phase = .rxc1) →
    request s = readRequest s s.sq.kc
      ∧ s.crc = crcBytes 0x0000 (responseHeader s s.sq.kc ++ receivedBytes s s.sq.n.toNat)

/-- The stream operations of one whole attempt of the running command (70_reset_and_hazards.md R172). -/
def opsPerAttempt (s : State) : Nat :=
  match s.sq.op with
  | .xwr => 3
  | .xrd => 4 + widthSum s s.sq.n.toNat

/-- The stream operations left in the current attempt, the outstanding one among them. -/
def opsInAttempt (s : State) : Nat :=
  match s.sq.phase with
  | .idle => 0
  | .flush => opsPerAttempt s
  | .tx => opsPerAttempt s - 1
  | .ack => 1
  | .rxd => widthSumFrom s s.sq.i.toNat s.sq.n.toNat - s.sq.j.toNat + 2
  | .rxc0 => 2
  | .rxc1 => 1

/-- The most stream operations the running command can still perform (70_reset_and_hazards.md R172). -/
def opsLeft (s : State) : Nat :=
  match s.sq.phase with
  | .idle => 0
  | _ => (s.cfg.tries.toNat - s.sq.k.toNat) * opsPerAttempt s + opsInAttempt s

/-- The state with the sequencer variables that reset leaves unspecified taken from `q`
(10_state.md R25, 93_implementation_defined.md U11). -/
def withUnspecified (q : Sequencer) (s : State) : State :=
  { s with
    sq := { q with
      phase := s.sq.phase, k := s.sq.k, lastfail := s.sq.lastfail, lastinfo := s.sq.lastinfo } }

/-- Two states no host access, no stream operation and no record of them tells apart: every register
reads the same, and the environment, its record and the values read are the same. -/
def SameView (s t : State) : Prop :=
  (∀ off, regRead s off = regRead t off) ∧ s.port = t.port ∧ s.txlog = t.txlog
    ∧ s.readLog = t.readLog ∧ s.inputs = t.inputs

/-- Two outcomes that stop for one reason, or go on to states of one view. -/
def SameOutcome (x y : Host.Outcome State Fault Refusal) : Prop :=
  match x, y with
  | .next s, .next t => SameView s t
  | .fault f, .fault g => f = g
  | .refused f, .refused g => f = g
  | _, _ => False

/-- The machine's moves over a number of steps (Host.Core.run). -/
def runSteps (m : Nat) (s : State) : Host.Outcome State Fault Refusal :=
  Host.Core.run Sys2Proof.core m s

/-- The port's and the device's moves that answer an ack read: a byte sent and then read, or a read
that times out (20_memory.md R48, R51). -/
def ackMoves : Option Byte → List Input
  | some b => [.deviceByte b, .portAnswer .ok]
  | none => [.portAnswer .ok]

/-- The moves of one XWR attempt whose flush and write are answered OK (43_transport.md R107). -/
def writeAttemptMoves (ack : Option Byte) : List Input :=
  .portAnswer .ok :: .portAnswer .ok :: ackMoves ack

/-- ERRINFO of an XWR whose last attempt had this ack (60_exceptions.md R144). -/
def ackInfo : Option Byte → Word
  | some b => 0x100 ||| b.setWidth 32
  | none => 0x200

/-- The moves that deliver a list of bytes one by one, each sent and then read. -/
def deliverMoves (bs : List Byte) : List Input :=
  bs.flatMap (fun b => [.deviceByte b, .portAnswer .ok])

/-- The host's write of a command to CMD. -/
def cmdMove (i : Instr) : Input := .hostWrite .word 0x000 (encode i)

end Sys2Proof.Machine
end

