-- ==== Sys2Proof/Certificates/Slice0/Obligations.lean ====
section
/-! DEFINITION. The statements for the provers, family by family. -/

open Sys2Proof Sys2Proof.Machine

/-! ### Encoding -/

/-- A few words written out from the fields of 30_encoding.md R60 and R75 decode to the command they
stand for, and words that R66 rejects do not decode.
The names of the reasons are the model's. -/
def Obligations.DecodesWrittenWords : Prop :=
  decode 0x01000000 = .ok .crcClr ∧ decode 0x02000055 = .ok (.crcFeed 0x55)
    ∧ decode 0x03000004 = .ok (.crcFeedb 4) ∧ decode 0x12000000 = .ok .enc32
    ∧ decode 0x19000000 = .ok .dec16 ∧ decode 0x20220300 = .ok (.xwr 0x22 3)
    ∧ decode 0x21121000 = .ok (.xrd 0x12 16)
    ∧ decode 0x03000005 = .error .tooManyLanes ∧ decode 0x20001100 = .error .tooManyFields
    ∧ decode 0x20002000 = .error .reservedBits ∧ decode 0x13000000 = .error .reservedOpcode
    ∧ decode 0x10000100 = .error .unusedField

/-- The decoder reads back every command with every operand the encoding admits. -/
def Obligations.DecodeEncodeRoundTrip : Prop :=
  ∀ i : Instr, i.wf = true → decode (encode i) = .ok i

/-- 30_encoding.md R67: every word is exactly one of the eleven commands with legal fields, or illegal
under R66, and the decoder says which. -/
def Obligations.EveryWordIsOneCommandOrIllegal : Prop :=
  ∀ w : Word,
    (¬ IllegalCommandWord w ∧ ∃ i : Instr, i.wf = true ∧ encode i = w ∧ decode w = .ok i
        ∧ ∀ j : Instr, j.wf = true → encode j = w → j = i)
      ∨ (IllegalCommandWord w ∧ (∃ e, decode w = .error e)
        ∧ ∀ j : Instr, j.wf = true → encode j ≠ w)

/-- 30_encoding.md R66 and 60_exceptions.md R142: an illegal word written while BUSY = 0 completes at
once with ERR_ILLEGAL and the word, and changes nothing else; the sequencer stays IDLE. -/
def Obligations.IllegalWordCompletesAtOnce : Prop :=
  ∀ (s : State) (w : Word), s.status.busy = false → s.sq.phase = .idle → IllegalCommandWord w →
    hostWrite .word 0x000 w s =
      .next { s with
        status := { s.status with done := true, code := .errIllegal, attempts := 0 }
        errinfo := w }

/-! ### Steps -/

/-- When the next move of the outside world writes a word to CMD and the word decodes, the step is the
command's meaning, with the move taken off the list.
The list of moves is the model's (log 1). -/
def Obligations.StepRunsDecodedCommand : Prop :=
  ∀ (s : State) (w : Word) (i : Instr) (rest : List Input),
    s.inputs = .hostWrite .word 0x000 w :: rest → s.status.busy = false → decode w = .ok i →
      step s = exec i { s with inputs := rest }

/-- A word placed by `withFetchWord` is run by the very next step, as the first command after reset too.
That the placed word is the host's next move is the model's choice (log 2). -/
def Obligations.FetchWordRunsNext : Prop :=
  ∀ (s : State) (w : Nat) (i : Instr), s.status.busy = false → decodeTableWord 32 w = some i →
    step (s.withFetchWord 32 w) = exec i s

/-- Every step goes on, but for a host access that is not admitted and a port answer in IDLE: no command
word and no register value stops the machine.
The refusal is the model's (log 4). -/
def Obligations.OnlyUnadmittedMovesStop : Prop :=
  ∀ s : State,
    (∃ t, step s = .next t)
      ∨ (∃ size off rest f, (s.inputs = .hostRead size off :: rest
            ∨ ∃ v, s.inputs = .hostWrite size off v :: rest)
          ∧ (size ≠ .word ∨ off % 4 ≠ 0 ∨ 0x1000 ≤ off) ∧ step s = .fault f)
      ∨ (∃ a rest, s.inputs = .portAnswer a :: rest ∧ s.sq.phase = .idle
          ∧ step s = .refused .noStreamOperation)

/-! ### The checksum -/

/-- 41_checksum.md R81, the laws of the fold: seed, streaming, zero on zero, residue, linearity. -/
def Obligations.ChecksumFoldLaws : Prop :=
  (∀ c : Half, crcBytes c [] = c)
    ∧ (∀ (c : Half) (xs ys : List Byte), crcBytes (crcBytes c xs) ys = crcBytes c (xs ++ ys))
    ∧ crcStep 0x0000 0x00 = 0x0000
    ∧ (∀ m : Nat, crcBytes 0x0000 (List.replicate m 0x00) = 0x0000)
    ∧ (∀ m : List Byte,
        crcBytes 0x0000 (m ++ [(crcBytes 0x0000 m).extractLsb' 8 8, (crcBytes 0x0000 m).extractLsb' 0 8])
          = 0x0000)
    ∧ (∀ (c : Half) (xs : List Byte),
        crcBytes c xs = crcBytes c (List.replicate xs.length 0x00) ^^^ crcBytes 0x0000 xs)
    ∧ (∀ (a k : Byte) (m : Nat),
        crcBytes 0x0000 ([a, k] ++ List.replicate m 0x00) = 0x0000 → a = 0x00 ∧ k = 0x00)

/-- The fold of a byte is the bit procedure of 41_checksum.md R80 with the polynomial 0x1021, and equals
the table form that the rule gives beside it, with the rule's three values of the table. -/
def Obligations.FoldHasTableForm : Prop :=
  (∀ (c : Half) (b : Byte),
      crcStep c b =
        Nat.repeat (fun d : Half => if d.getLsbD 15 then (d <<< 1) ^^^ 0x1021 else d <<< 1) 8
          (c ^^^ (b.setWidth 16 <<< 8)))
    ∧ (∀ (c : Half) (b : Byte),
      crcStep c b = (c <<< 8) ^^^ crcStep 0x0000 (c.extractLsb' 8 8 ^^^ b))
    ∧ crcStep 0x0000 0x01 = 0x1021 ∧ crcStep 0x0000 0x80 = 0x9188 ∧ crcStep 0x0000 0xFF = 0x1EF0

/-- 41_checksum.md R82, CRC.CLR: its result, what it leaves unchanged, its word, the words it rejects. -/
def Obligations.CrcClrResetsChecksum : Prop :=
  ∀ s : State, s.status.busy = false →
    exec .crcClr s = .next { completedOk s with crc := 0x0000 }
      ∧ writeCmd 0x01000000 s = exec .crcClr s
      ∧ RejectsIllegalWords 0x01 s

/-- 41_checksum.md R83, CRC.FEED: its result for every byte, what it leaves unchanged, its word, the words
it rejects. -/
def Obligations.CrcFeedFoldsOneByte : Prop :=
  ∀ (s : State) (b : Byte), s.status.busy = false →
    exec (.crcFeed b) s = .next { completedOk s with crc := crcStep s.crc b }
      ∧ writeCmd (0x02000000 ||| b.setWidth 32) s = exec (.crcFeed b) s
      ∧ RejectsIllegalWords 0x02 s

/-- 41_checksum.md R84, CRC.FEEDB: its result for every lane count from 0 to 4, what it leaves unchanged,
its word, the words it rejects (a count over 4 among them). -/
def Obligations.CrcFeedbFoldsLanes : Prop :=
  ∀ (s : State) (c : Byte), s.status.busy = false → c.toNat ≤ 4 →
    exec (.crcFeedb c) s =
        .next { completedOk s with
          crc := crcBytes s.crc
            (([s.bytes.extractLsb' 0 8, s.bytes.extractLsb' 8 8, s.bytes.extractLsb' 16 8,
              s.bytes.extractLsb' 24 8] : List Byte).take c.toNat) }
      ∧ writeCmd (0x03000000 ||| c.setWidth 32) s = exec (.crcFeedb c) s
      ∧ RejectsIllegalWords 0x03 s

/-- 41_checksum.md R85: reading CRC returns the zero-extended checksum and changes no register, in every
state.
`readLog` is how the model says what a read returned (log 11). -/
def Obligations.ReadingChecksumChangesNothing : Prop :=
  ∀ s : State,
    hostRead .word 0x00C s = .next { s with readLog := s.readLog ++ [s.crc.setWidth 32] }

/-- `crc.update` (30_encoding.md part 3): a host that runs its expansion leaves the fold of the byte list
in CRC and no other register of the codec or transport changed, and goes on with what follows. -/
def Obligations.CrcUpdateFoldsByteList : Prop :=
  ∀ (s : State) (bs : List Byte) (rest : List HostOp), s.status.busy = false →
    ∃ t, runHosted (List.replicate bs.length .host)
          { listing := asmExpand (.crcUpdate bs) ++ rest, block := s }
        = .next { listing := rest, block := t }
      ∧ t.crc = crcBytes s.crc bs ∧ t.inputs = s.inputs
      ∧ t.data = s.data ∧ t.bytes = s.bytes ∧ t.res = s.res ∧ t.txbuf = s.txbuf
      ∧ t.txlen = s.txlen ∧ t.status.rvalid = s.status.rvalid ∧ t.port = s.port

/-! ### The codec -/

/-- 42_codec.md R90 and R91: be_bytes of a value for the widths 1, 2 and 4, and be_join of 1, 2 and 4
bytes, zero-extended. -/
def Obligations.BeBytesAndBeJoinAreBigEndian : Prop :=
  (∀ v : Word,
    beBytes v 1 = [v.extractLsb' 0 8]
      ∧ beBytes v 2 = [v.extractLsb' 8 8, v.extractLsb' 0 8]
      ∧ beBytes v 4 = [v.extractLsb' 24 8, v.extractLsb' 16 8, v.extractLsb' 8 8, v.extractLsb' 0 8])
    ∧ (∀ b0 b1 b2 b3 : Byte,
      beJoin [b0] = b0.setWidth 32
        ∧ beJoin [b0, b1] = (b0 ++ b1).setWidth 32
        ∧ beJoin [b0, b1, b2, b3] = b0 ++ b1 ++ b2 ++ b3)

/-- 42_codec.md R92 to R94, ENC8, ENC16 and ENC32: BYTES from DATA, everything else unchanged but the
completion fields, their words, the words they reject. -/
def Obligations.EncodeCommandsSplitData : Prop :=
  ∀ s : State, s.status.busy = false →
    exec .enc8 s = .next { completedOk s with bytes := (0#24) ++ s.data.extractLsb' 0 8 }
      ∧ exec .enc16 s =
          .next { completedOk s with
            bytes := (0#16) ++ s.data.extractLsb' 0 8 ++ s.data.extractLsb' 8 8 }
      ∧ exec .enc32 s =
          .next { completedOk s with
            bytes := s.data.extractLsb' 0 8 ++ s.data.extractLsb' 8 8 ++ s.data.extractLsb' 16 8
              ++ s.data.extractLsb' 24 8 }
      ∧ writeCmd 0x10000000 s = exec .enc8 s ∧ writeCmd 0x11000000 s = exec .enc16 s
      ∧ writeCmd 0x12000000 s = exec .enc32 s
      ∧ RejectsIllegalWords 0x10 s ∧ RejectsIllegalWords 0x11 s ∧ RejectsIllegalWords 0x12 s

/-- 42_codec.md R95 to R97, DEC8, DEC16 and DEC32: DATA from BYTES, everything else unchanged but the
completion fields, their words, the words they reject. -/
def Obligations.DecodeCommandsJoinBytes : Prop :=
  ∀ s : State, s.status.busy = false →
    exec .dec8 s = .next { completedOk s with data := (s.bytes.extractLsb' 0 8).setWidth 32 }
      ∧ exec .dec16 s =
          .next { completedOk s with
            data := (s.bytes.extractLsb' 0 8 ++ s.bytes.extractLsb' 8 8).setWidth 32 }
      ∧ exec .dec32 s =
          .next { completedOk s with
            data := s.bytes.extractLsb' 0 8 ++ s.bytes.extractLsb' 8 8 ++ s.bytes.extractLsb' 16 8
              ++ s.bytes.extractLsb' 24 8 }
      ∧ writeCmd 0x18000000 s = exec .dec8 s ∧ writeCmd 0x19000000 s = exec .dec16 s
      ∧ writeCmd 0x1A000000 s = exec .dec32 s
      ∧ RejectsIllegalWords 0x18 s ∧ RejectsIllegalWords 0x19 s ∧ RejectsIllegalWords 0x1A s

/-- 42_codec.md R98: encode then decode leaves DATA truncated and zero-extended, and a signed value that
fits comes back by sign extension; decode then encode keeps the lanes of the width and clears the rest. -/
def Obligations.CodecRoundTrip : Prop :=
  ∀ s : State, s.status.busy = false →
    ∀ (enc dec : Instr) (w : Nat),
      ((enc = .enc8 ∧ dec = .dec8 ∧ w = 1) ∨ (enc = .enc16 ∧ dec = .dec16 ∧ w = 2)
        ∨ (enc = .enc32 ∧ dec = .dec32 ∧ w = 4)) →
      (∃ t u, exec enc s = .next t ∧ exec dec t = .next u
        ∧ u.data = (s.data.setWidth (8 * w)).setWidth 32
        ∧ (((s.data.setWidth (8 * w)).signExtend 32 = s.data) →
            (u.data.setWidth (8 * w)).signExtend 32 = s.data))
      ∧ (∃ t u, exec dec s = .next t ∧ exec enc t = .next u
        ∧ u.bytes = (s.bytes.setWidth (8 * w)).setWidth 32)

/-- The nine checksum and codec commands leave every register reading as before, but STATUS, ERRINFO and
the one they write (CRC, BYTES or DATA), and do not reach the environment or its record. -/
def Obligations.ChecksumAndCodecFrame : Prop :=
  ∀ (s : State) (i : Instr) (dest : Nat), s.status.busy = false → i.wf = true →
    (i = .crcClr ∨ (∃ b, i = .crcFeed b) ∨ (∃ c, i = .crcFeedb c)) ∧ dest = 0x00C
      ∨ (i = .enc8 ∨ i = .enc16 ∨ i = .enc32) ∧ dest = 0x014
      ∨ (i = .dec8 ∨ i = .dec16 ∨ i = .dec32) ∧ dest = 0x010 →
    ∃ t, exec i s = .next t
      ∧ (∀ off, off % 4 = 0 → off < 0x1000 → off ≠ 0x004 → off ≠ 0x018 → off ≠ dest →
          regRead t off = regRead s off)
      ∧ t.status.rvalid = s.status.rvalid ∧ t.status.ovr = s.status.ovr
      ∧ t.sq = { s.sq with phase := .idle } ∧ t.port = s.port ∧ t.txlog = s.txlog
      ∧ t.build = s.build ∧ t.inputs = s.inputs ∧ t.readLog = s.readLog

/-! ### Registers -/

/-- 20_memory.md R42: a read of a word-aligned offset returns the value of its register and changes no
register. STATUS.CODE has the numbers of 60_exceptions.md R141.
`readLog` is how the model says what a read returned (log 11). -/
def Obligations.RegisterReadsReturnFields : Prop :=
  ∀ s : State,
    (∀ off, off % 4 = 0 → off < 0x1000 →
        hostRead .word off s = .next { s with readLog := s.readLog ++ [regRead s off] })
      ∧ regRead s 0x000 = 0
      ∧ (regRead s 0x004).toNat =
          s.status.busy.toNat + 2 * s.status.done.toNat + 4 * s.status.rvalid.toNat
            + 8 * s.status.ovr.toNat
            + 16 * (match s.status.code with
              | .ok => 0
              | .errIo => 1
              | .errConfig => 2
              | .errWidth => 3
              | .errExhausted => 4
              | .errIllegal => 5)
            + 256 * s.status.attempts.toNat
      ∧ (regRead s 0x008).toNat =
          s.cfg.addr.toNat + 256 * s.cfg.tries.toNat + 65536 * s.cfg.ioRetry.toNat
      ∧ (regRead s 0x00C).toNat = s.crc.toNat
      ∧ regRead s 0x010 = s.data ∧ regRead s 0x014 = s.bytes ∧ regRead s 0x018 = s.errinfo
      ∧ (regRead s 0x01C).toNat = s.txlen.toNat
      ∧ (∀ i : Fin 16, regRead s (0x040 + 4 * i.val) = s.fval[i]
          ∧ (regRead s (0x080 + 4 * i.val)).toNat = (s.fwid[i]).toNat
          ∧ regRead s (0x0C0 + 4 * i.val) = s.res[i])
      ∧ (∀ (m : Fin 17) (q : Fin 4),
          (regRead s (0x100 + 4 * m.val)).extractLsb' (8 * q.val) 8 = txbufAt s (4 * m.val + q.val))
      ∧ (∀ off, off % 4 = 0 → (0x020 ≤ off ∧ off < 0x040) ∨ 0x144 ≤ off → regRead s off = 0)

/-- 20_memory.md R43: the effect of a write to every word-aligned offset, and the write that is dropped
while BUSY = 1. -/
def Obligations.RegisterWritesTakeEffect : Prop :=
  ∀ (s : State) (off : Nat) (v : Word), off % 4 = 0 → off < 0x1000 →
    (off ≠ 0x004 → s.status.busy = true →
        hostWrite .word off v s = .next { s with status := { s.status with ovr := true } })
      ∧ (off = 0x004 → v.getLsbD 3 = true →
        hostWrite .word off v s = .next { s with status := { s.status with ovr := false } })
      ∧ (off = 0x004 → v.getLsbD 3 = false → hostWrite .word off v s = .next s)
      ∧ (s.status.busy = false →
        (off = 0x000 → hostWrite .word off v s =
            match decode v with
            | .ok i => exec i s
            | .error _ => .next (completedIllegal v s))
        ∧ (off = 0x008 → hostWrite .word off v s =
            .next { s with cfg :=
              { addr := v.extractLsb' 0 8, tries := v.extractLsb' 8 8, ioRetry := v.getLsbD 16 } })
        ∧ (off = 0x010 → hostWrite .word off v s = .next { s with data := v })
        ∧ (off = 0x014 → hostWrite .word off v s = .next { s with bytes := v })
        ∧ (∀ i : Fin 16, off = 0x040 + 4 * i.val →
            hostWrite .word off v s = .next { s with fval := s.fval.set i v })
        ∧ (∀ i : Fin 16, off = 0x080 + 4 * i.val →
            hostWrite .word off v s = .next { s with fwid := s.fwid.set i (v.extractLsb' 0 8) })
        ∧ (off = 0x00C ∨ off = 0x018 ∨ off = 0x01C ∨ (0x020 ≤ off ∧ off < 0x040) ∨ 0x0C0 ≤ off →
            hostWrite .word off v s = .next s))

/-- 20_memory.md R45: a host access that is not a word access at a word-aligned offset of the block has
no step.
The model says so by a fault (log 5). -/
def Obligations.UnadmittedAccessHasNoStep : Prop :=
  ∀ (s : State) (size : AccessSize) (off : Nat) (v : Word),
    size ≠ .word ∨ off % 4 ≠ 0 ∨ 0x1000 ≤ off →
      (∃ f, hostRead size off s = .fault f) ∧ (∃ f, hostWrite size off v s = .fault f)

/-- 10_state.md R14: while BUSY = 1 a write to any register but STATUS changes nothing except that it sets
OVR, and reads are served. -/
def Obligations.BusyDropsHostWrites : Prop :=
  ∀ (s : State) (off : Nat) (v : Word) (rest : List Input),
    s.status.busy = true → off % 4 = 0 → off < 0x1000 →
      (off ≠ 0x004 → s.inputs = .hostWrite .word off v :: rest →
        step s = .next { s with inputs := rest, status := { s.status with ovr := true } })
      ∧ (s.inputs = .hostRead .word off :: rest →
        step s = .next { s with inputs := rest, readLog := s.readLog ++ [regRead s off] })

/-- 10_state.md R11: undefined bits and offsets read 0, and a write to them is ignored. -/
def Obligations.ReservedBitsReadZeroIgnoreWrites : Prop :=
  ∀ s : State,
    (regRead s 0x004).extractLsb' 16 16 = 0 ∧ (regRead s 0x008).extractLsb' 17 15 = 0
      ∧ (regRead s 0x00C).extractLsb' 16 16 = 0 ∧ (regRead s 0x01C).extractLsb' 7 25 = 0
      ∧ (∀ i : Fin 16, (regRead s (0x080 + 4 * i.val)).extractLsb' 8 24 = 0)
      ∧ (∀ off, off % 4 = 0 → (0x020 ≤ off ∧ off < 0x040) ∨ 0x144 ≤ off → regRead s off = 0)
      ∧ (∀ v v' : Word, (v.getLsbD 3 = v'.getLsbD 3) →
          hostWrite .word 0x004 v s = hostWrite .word 0x004 v' s)
      ∧ (∀ v v' : Word, v.setWidth 17 = v'.setWidth 17 →
          hostWrite .word 0x008 v s = hostWrite .word 0x008 v' s)
      ∧ (∀ (i : Fin 16) (v v' : Word), v.setWidth 8 = v'.setWidth 8 →
          hostWrite .word (0x080 + 4 * i.val) v s = hostWrite .word (0x080 + 4 * i.val) v' s)
      ∧ (∀ off v, off % 4 = 0 → off < 0x1000 → (0x020 ≤ off ∧ off < 0x040) ∨ 0x144 ≤ off →
          s.status.busy = false → hostWrite .word off v s = .next s)

/-- 10_state.md R13: OVR is sticky. Once 1, a step leaves it 1 unless it is a host write of STATUS with
bit 3 set, or reset. -/
def Obligations.OverrunFlagIsSticky : Prop :=
  ∀ s t : State, step s = .next t → s.status.ovr = true →
    t.status.ovr = true
      ∨ (∃ v rest, s.inputs = .hostWrite .word 0x004 v :: rest ∧ v.getLsbD 3 = true)
      ∨ (∃ sent rxq rest, s.inputs = .reset sent rxq :: rest)

/-! ### The stream port -/

/-- 20_memory.md R48: at any moment a device byte is appended to the input buffer, or lost when the buffer
holds RX_DEPTH bytes; nothing else changes. -/
def Obligations.DeviceByteAppendedOrLost : Prop :=
  ∀ (s : State) (b : Byte) (rest : List Input), s.inputs = .deviceByte b :: rest →
    step s =
      .next { s with
        inputs := rest
        port := { s.port with
          rxq := if s.port.rxq.length < s.build.rxDepth then s.port.rxq ++ [b] else s.port.rxq } }

/-- 20_memory.md R49: a flush answered OK empties the input buffer; answered IOERR it can leave exactly the
sub-lists of it. It sends nothing, and changes nothing else but the one answer in TXLOG. -/
def Obligations.FlushEmptiesOrLeavesSublist : Prop :=
  ∀ s : State,
    streamFlush .ok s =
        (.ok, { s with
          port := { s.port with rxq := [] }
          txlog := { s.txlog with answers := s.txlog.answers ++ [.flushOk] } })
      ∧ (∀ info keep sent, ∃ kept, kept.Sublist s.port.rxq
          ∧ streamFlush (.ioErr info keep sent) s =
            (.ioErr info, { s with
              port := { s.port with rxq := kept }
              txlog := { s.txlog with answers := s.txlog.answers ++ [.flushErr info] } }))
      ∧ (∀ (info : Word) (kept : List Byte), kept.Sublist s.port.rxq →
          ∃ keep sent, (streamFlush (.ioErr info keep sent) s).2.port.rxq = kept)

/-- 20_memory.md R50: a write answered OK sends every byte in one transmission; answered IOERR it has sent
any first part, none and all of it among them. Both are appended to TXLOG, with the answer; nothing else
changes. -/
def Obligations.WriteSendsAllOrFirstPart : Prop :=
  ∀ (s : State) (bs : List Byte),
    streamWrite bs .ok s =
        (.ok, { s with
          txlog :=
            { packets := s.txlog.packets ++ [bs], answers := s.txlog.answers ++ [.writeOk bs] } })
      ∧ (∀ info keep n, ∃ sent, sent <+: bs
          ∧ streamWrite bs (.ioErr info keep n) s =
            (.ioErr info, { s with
              txlog :=
                { packets := s.txlog.packets ++ [sent]
                  answers := s.txlog.answers ++ [.writeErr info sent] } }))
      ∧ (∀ (info : Word) (sent : List Byte), sent <+: bs →
          ∃ keep n,
            (streamWrite bs (.ioErr info keep n) s).2.txlog.packets = s.txlog.packets ++ [sent])

/-- 20_memory.md R51: a one-byte read answers the head of the input buffer, removed; TIMEOUT only when it
is empty; IOERR at any time. The state is else as before, but for the one answer in TXLOG. A port that
waits for a device byte answers that byte. That the answer `ok` is BYTE or TIMEOUT by the input buffer is
the model's reading (log 3). -/
def Obligations.ReadTakesHeadOrTimesOut : Prop :=
  ∀ s : State,
    (∀ b rest, s.port.rxq = b :: rest →
        streamRead1 .ok s =
          (.byte b, { s with
            port := { s.port with rxq := rest }
            txlog := { s.txlog with answers := s.txlog.answers ++ [.readByte b] } }))
      ∧ (s.port.rxq = [] →
        streamRead1 .ok s =
            (.timeout, { s with
              txlog := { s.txlog with answers := s.txlog.answers ++ [.readTimeout] } })
          ∧ ∀ b, streamRead1 .ok (deviceArrival b s) =
            (.byte b, { s with
              txlog := { s.txlog with answers := s.txlog.answers ++ [.readByte b] } }))
      ∧ (∀ info keep sent,
        streamRead1 (.ioErr info keep sent) s =
          (.ioErr info, { s with
            txlog := { s.txlog with answers := s.txlog.answers ++ [.readErr info] } }))

/-- 10_state.md R28 and 20_memory.md R52: TXLOG only grows; only an answer of the port to an outstanding
operation adds an answer, and it adds one.
A failed write that sent nothing appends an empty list (log 18). That a reset keeps TXLOG, and that the part
of a write it abandons may stand there as a packet without an answer, is the model's (log 10). -/
def Obligations.TransmitRecordOnlyGrows : Prop :=
  ∀ s t : State, step s = .next t →
    ∃ packets answers, t.txlog.packets = s.txlog.packets ++ packets
      ∧ t.txlog.answers = s.txlog.answers ++ answers
      ∧ ((∃ a rest, s.inputs = .portAnswer a :: rest) → answers.length = 1)
      ∧ ((¬ ∃ a rest, s.inputs = .portAnswer a :: rest) → answers = [])
      ∧ (packets ≠ [] → s.sq.phase = .tx ∧ packets.length = 1)

/-! ### Acceptance of the transport commands -/

/-- 43_transport.md R101: with a width of a used field not in 1, 2, 4, XWR and XRD end at once with
ERR_WIDTH and the lowest such index above its width; no stream operation, and no other register changes. -/
def Obligations.WidthCheckRejectsFirstBadWidth : Prop :=
  ∀ (s : State) (kc : Byte) (n : BitVec 5) (i : Nat), s.status.busy = false → n.toNat ≤ 16 →
    i < n.toNat → WidthsLegal s i → ¬ (fwidAt s i = 1 ∨ fwidAt s i = 2 ∨ fwidAt s i = 4) →
      exec (.xwr kc n) s =
          .next (endedAtAcceptance .xwr kc n .errWidth
            (BitVec.ofNat 32 (i * 256 + (fwidAt s i).toNat)) s)
        ∧ exec (.xrd kc n) s =
          .next (endedAtAcceptance .xrd kc n .errWidth
            (BitVec.ofNat 32 (i * 256 + (fwidAt s i).toNat)) s)

/-- 43_transport.md R102: after the width check, a port that is not READY ends XWR and XRD with ERR_CONFIG
and its information; no stream operation. -/
def Obligations.SetupCheckReportsPortError : Prop :=
  ∀ (s : State) (kc : Byte) (n : BitVec 5) (info : Word), s.status.busy = false → n.toNat ≤ 16 →
    WidthsLegal s n.toNat → s.port.portcfg = .cfgErr info →
      exec (.xwr kc n) s = .next (endedAtAcceptance .xwr kc n .errConfig info s)
        ∧ exec (.xrd kc n) s = .next (endedAtAcceptance .xrd kc n .errConfig info s)

/-- With CFG.TRIES = 0, XWR and XRD end with ERR_EXHAUSTED and no information after zero attempts, with no
stream operation. -/
def Obligations.ZeroBudgetEndsExhausted : Prop :=
  ∀ (s : State) (kc : Byte) (n : BitVec 5), s.status.busy = false → n.toNat ≤ 16 →
    WidthsLegal s n.toNat → s.port.portcfg = .ready → s.cfg.tries = 0 →
      exec (.xwr kc n) s = .next (endedAtAcceptance .xwr kc n .errExhausted 0 s)
        ∧ exec (.xrd kc n) s = .next (endedAtAcceptance .xrd kc n .errExhausted 0 s)

/-- XWR and XRD with legal widths, a READY port and a budget start their first attempt: BUSY and ATTEMPTS
are 1, the sequencer waits for the flush, and every other register is as before. -/
def Obligations.TransportCommandStartsFirstAttempt : Prop :=
  ∀ (s : State) (kind : Op) (kc : Byte) (n : BitVec 5), s.status.busy = false → n.toNat ≤ 16 →
    WidthsLegal s n.toNat → s.port.portcfg = .ready → s.cfg.tries ≠ 0 →
      exec (match kind with | .xwr => .xwr kc n | .xrd => .xrd kc n) s =
        .next { s with
          status :=
            { busy := true
              done := false
              rvalid := if kind = .xrd then false else s.status.rvalid
              ovr := s.status.ovr
              code := .ok
              attempts := 1 }
          errinfo := 0
          crc := 0x0000
          txlen := 0
          sq :=
            { latchedSequencer kind kc n s with phase := .flush, k := 1, tof := false } }

/-- XWR and XRD written while BUSY = 1 are dropped and set OVR, and so is every other command. -/
def Obligations.BusyTurnsEveryCommandAway : Prop :=
  ∀ (s : State) (i : Instr), s.status.busy = true →
    exec i s = .next { s with status := { s.status with ovr := true } }

/-! ### The attempts -/

/-- 43_transport.md R103 and R106: another attempt while the budget lasts; when it is spent, the command
ends with the code and the information of its last failure. -/
def Obligations.NextAttemptOrExhaustion : Prop :=
  ∀ s : State,
    (s.sq.k ≠ s.cfg.tries →
        nextAttempt s =
          { s with
            status := { s.status with attempts := s.sq.k + 1 }
            crc := 0x0000
            txlen := 0
            sq := { s.sq with k := s.sq.k + 1, tof := false, phase := .flush } })
      ∧ (s.sq.k = s.cfg.tries →
        nextAttempt s =
          { s with
            status :=
              { s.status with
                busy := false
                done := true
                code := if s.sq.lastfail = .io then .errIo else .errExhausted }
            errinfo := s.sq.lastinfo
            sq := { s.sq with phase := .idle } })

/-- 43_transport.md R105: a stream I/O error of any operation ends the command with ERR_IO when IORETRY is
0, and fails only the attempt when it is 1. `t` is the state after the failed operation: a flush leaves
what its answer keeps of the input buffer, a write puts the first part it sent in TXLOG, and each adds the
one answer. -/
def Obligations.StreamErrorFollowsRetryPolicy : Prop :=
  ∀ (s : State) (info : Word) (keep : List Bool) (sent : Nat), s.sq.phase ≠ .idle →
    ∃ t : State,
      (s.sq.phase = .flush →
          streamFlush (.ioErr info keep sent) s = (.ioErr info, t)
            ∧ t = recordAnswer (.flushErr info)
              { s with port := { s.port with rxq := keptBy keep s.port.rxq } })
        ∧ (s.sq.phase = .tx →
          streamWrite (request s) (.ioErr info keep sent) s = (.ioErr info, t)
            ∧ t = recordAnswer (.writeErr info ((request s).take sent))
              (recordPacket ((request s).take sent) s))
        ∧ (s.sq.phase ≠ .flush → s.sq.phase ≠ .tx →
          streamRead1 (.ioErr info keep sent) s = (.ioErr info, t)
            ∧ t = recordAnswer (.readErr info) s)
        ∧ (s.cfg.ioRetry = false →
          onAnswer (.ioErr info keep sent) s =
            .next { t with
              status := { s.status with busy := false, done := true, code := .errIo }
              errinfo := info
              sq := { s.sq with phase := .idle, lastfail := .io, lastinfo := info } })
        ∧ (s.cfg.ioRetry = true →
          onAnswer (.ioErr info keep sent) s =
            .next (nextAttempt { t with
              sq := { s.sq with lastfail := .io, lastinfo := info } }))

/-- 43_transport.md R108 and 30_encoding.md R70: when the flush of an XWR attempt answers OK, the output
buffer holds the write request, CRC its checksum, TXLEN its length; bytes above it stay; the sequencer
waits for the write. -/
def Obligations.WriteRequestIsBuilt : Prop :=
  ∀ s : State, s.sq.phase = .flush → s.sq.op = .xwr → s.txlen = 0 → s.crc = 0x0000 →
    s.sq.n.toNat ≤ 16 → WidthsLegal s s.sq.n.toNat →
      ∃ t, onAnswer .ok s = .next t
        ∧ t = { s with
            crc := t.crc
            txbuf := t.txbuf
            txlen := t.txlen
            port := { s.port with rxq := [] }
            txlog := { s.txlog with answers := s.txlog.answers ++ [.flushOk] }
            sq := { s.sq with phase := .tx } }
        ∧ request t = writeRequest s s.sq.kc s.sq.n.toNat
        ∧ t.crc = crcBytes 0x0000 (writeBody s s.sq.kc s.sq.n.toNat)
        ∧ t.txlen.toNat = 4 + widthSum s s.sq.n.toNat ∧ t.txlen.toNat ≤ 68
        ∧ ∀ q, t.txlen.toNat ≤ q → txbufAt t q = txbufAt s q

/-- 43_transport.md R113 and 30_encoding.md R71: when the flush of an XRD attempt answers OK, the output
buffer holds the two-byte read request and CRC its checksum, or the seed under PAYLOAD_ONLY. -/
def Obligations.ReadRequestIsBuilt : Prop :=
  ∀ s : State, s.sq.phase = .flush → s.sq.op = .xrd →
    ∃ t, onAnswer .ok s = .next t
      ∧ t = { s with
          crc := match s.build.rspCrcScope with
            | .hdrPayload => crcStep (crcStep 0x0000 s.cfg.addr) s.sq.kc
            | .payloadOnly => 0x0000
          txbuf := t.txbuf
          txlen := 2
          port := { s.port with rxq := [] }
          txlog := { s.txlog with answers := s.txlog.answers ++ [.flushOk] }
          sq := { s.sq with phase := .tx } }
      ∧ request t = [s.cfg.addr, s.sq.kc]
      ∧ ∀ q, 2 ≤ q → txbufAt t q = txbufAt s q

/-- 43_transport.md R109 and R114: the whole request goes out in one StreamWrite; an XWR then waits for
its one ack byte, an XRD for its first response byte. -/
def Obligations.RequestGoesOutInOneWrite : Prop :=
  ∀ s : State, s.sq.phase = .tx →
    ∃ t, onAnswer .ok s = .next t
      ∧ t = { s with
          txlog :=
            { packets := s.txlog.packets ++ [request s]
              answers := s.txlog.answers ++ [.writeOk (request s)] }
          sq := t.sq }
      ∧ (s.sq.op = .xwr → t.sq = { s.sq with phase := .ack })
      ∧ (s.sq.op = .xrd → s.sq.n = 0 → t.sq = { s.sq with phase := .rxc0, i := 0 })
      ∧ (s.sq.op = .xrd → s.sq.n ≠ 0 →
          t.sq = { s.sq with phase := .rxd, i := 0, j := 0, rxb := [] })

/-- 43_transport.md R110: an XWR attempt succeeds if and only if its ack is the byte 0xFF; any other byte
and a timeout fail it as NACK, each with its own information. -/
def Obligations.AckByteDecidesWriteAttempt : Prop :=
  ∀ s : State, s.sq.phase = .ack →
    (∀ rest, s.port.rxq = 0xFF :: rest →
        onAnswer .ok s =
          .next { s with
            port := { s.port with rxq := rest }
            txlog := { s.txlog with answers := s.txlog.answers ++ [.readByte 0xFF] }
            status := { s.status with busy := false, done := true, code := .ok }
            sq := { s.sq with phase := .idle } })
      ∧ (∀ b rest, s.port.rxq = b :: rest → b ≠ 0xFF →
        onAnswer .ok s =
          .next (nextAttempt { s with
            port := { s.port with rxq := rest }
            txlog := { s.txlog with answers := s.txlog.answers ++ [.readByte b] }
            sq := { s.sq with lastfail := .nack, lastinfo := BitVec.ofNat 32 (0x100 + b.toNat) } }))
      ∧ (s.port.rxq = [] →
        onAnswer .ok s =
          .next (nextAttempt { s with
            txlog := { s.txlog with answers := s.txlog.answers ++ [.readTimeout] }
            sq := { s.sq with lastfail := .nack, lastinfo := 0x200 } }))

/-- 43_transport.md R115: each byte of a field is folded and kept, a timeout counts as 0x00 and sets tof,
and the last byte of the field stages its value, which is joined big-endian. -/
def Obligations.FieldBytesAreFoldedAndStaged : Prop :=
  ∀ (s : State) (x : Byte) (late : Bool), s.sq.phase = .rxd → Running s →
    (s.port.rxq = [] ∧ x = 0x00 ∧ late = true)
      ∨ (s.port.rxq = x :: s.port.rxq.tail ∧ late = false) →
    ∃ t, onAnswer .ok s = .next t
      ∧ t = { s with
          crc := crcStep s.crc x
          port := { s.port with rxq := s.port.rxq.tail }
          txlog := { s.txlog with
            answers := s.txlog.answers ++ [if late then .readTimeout else .readByte x] }
          sq := t.sq }
      ∧ t.sq.tof = (s.sq.tof || late)
      ∧ (s.sq.j.toNat + 1 < (fwidAt s s.sq.i.toNat).toNat →
        t.sq = { s.sq with j := s.sq.j + 1, rxb := s.sq.rxb ++ [x], tof := t.sq.tof })
      ∧ (s.sq.j.toNat + 1 = (fwidAt s s.sq.i.toNat).toNat →
        t.sq = { s.sq with
            stg := s.sq.stg.setIfInBounds s.sq.i.toNat (beJoin (s.sq.rxb ++ [x]))
            i := s.sq.i + 1
            tof := t.sq.tof
            phase := t.sq.phase
            j := t.sq.j
            rxb := t.sq.rxb }
          ∧ (s.sq.i.toNat + 1 < s.sq.n.toNat →
            t.sq.phase = .rxd ∧ t.sq.j = 0 ∧ t.sq.rxb = [])
          ∧ (s.sq.i.toNat + 1 = s.sq.n.toNat → t.sq.phase = .rxc0))

/-- 43_transport.md R116: the two checksum bytes are read high byte first, are not folded, and a timeout
counts as 0x00 and sets tof. Read with the verdict that follows the low byte. -/
def Obligations.ResponseChecksumIsReadHighFirst : Prop :=
  ∀ (s : State) (hi : Byte) (late : Bool), s.sq.phase = .rxc0 →
    (s.port.rxq = [] ∧ hi = 0x00 ∧ late = true)
      ∨ (s.port.rxq = hi :: s.port.rxq.tail ∧ late = false) →
    ∃ t, onAnswer .ok s = .next t
      ∧ t = { s with
          port := { s.port with rxq := s.port.rxq.tail }
          txlog := { s.txlog with
            answers := s.txlog.answers ++ [if late then .readTimeout else .readByte hi] }
          sq := { s.sq with
            phase := .rxc1, rxcrc := t.sq.rxcrc, tof := s.sq.tof || late } }
      ∧ t.sq.rxcrc.extractLsb' 8 8 = hi

/-- 43_transport.md R117 and R118: the verdict after the low checksum byte. Verified: RES[i] takes the
staged value for every i below n and keeps it above, RVALID is set and the command ends OK. Not verified:
the attempt fails with the two compared checksums. -/
def Obligations.VerdictWritesResultsTogether : Prop :=
  ∀ (s : State) (lo : Byte) (late : Bool), s.sq.phase = .rxc1 → s.sq.n.toNat ≤ 16 →
    (s.port.rxq = [] ∧ lo = 0x00 ∧ late = true)
      ∨ (s.port.rxq = lo :: s.port.rxq.tail ∧ late = false) →
    ∃ (t : State) (txlog : TxLog), onAnswer .ok s = .next t
      ∧ txlog = { s.txlog with
          answers := s.txlog.answers ++ [if late then .readTimeout else .readByte lo] }
      ∧ ((s.crc = s.sq.rxcrc.extractLsb' 8 8 ++ lo
            ∧ ¬ (s.build.timeoutPolicy = .failAttempt ∧ (s.sq.tof || late) = true)) →
          t = { s with
              res := t.res
              port := { s.port with rxq := s.port.rxq.tail }
              txlog := txlog
              status :=
                { s.status with rvalid := true, busy := false, done := true, code := .ok }
              sq := { s.sq with
                phase := .idle
                rxcrc := s.sq.rxcrc.extractLsb' 8 8 ++ lo
                tof := s.sq.tof || late } }
            ∧ (∀ i, i < s.sq.n.toNat → resAt t i = stgAt s i)
            ∧ (∀ i, s.sq.n.toNat ≤ i → resAt t i = resAt s i))
      ∧ (¬ (s.crc = s.sq.rxcrc.extractLsb' 8 8 ++ lo
            ∧ ¬ (s.build.timeoutPolicy = .failAttempt ∧ (s.sq.tof || late) = true)) →
          t = nextAttempt { s with
            port := { s.port with rxq := s.port.rxq.tail }
            txlog := txlog
            sq := { s.sq with
              rxcrc := s.sq.rxcrc.extractLsb' 8 8 ++ lo
              tof := s.sq.tof || late
              lastfail := .bad
              lastinfo := (s.sq.rxcrc.extractLsb' 8 8 ++ lo) ++ s.crc } })

/-! ### Whole commands -/

/-- An XWR whose acks before the last are not 0xFF (other bytes or timeouts, fewer than the budget) and
whose next ack is 0xFF ends OK: one identical request sent for each attempt, ATTEMPTS their number. With
no failed ack before it: exactly one packet. -/
def Obligations.WriteStopsAtFirstAck : Prop :=
  ∀ (s : State) (kc : Byte) (n : BitVec 5) (acks : List (Option Byte)) (rest : List Input),
    s.status.busy = false → n.toNat ≤ 16 → WidthsLegal s n.toNat → s.port.portcfg = .ready →
    acks.length < s.cfg.tries.toNat → (∀ a ∈ acks, a ≠ some 0xFF) →
    s.inputs =
      cmdMove (.xwr kc n) ::
        ((acks ++ [some 0xFF]).flatMap writeAttemptMoves ++ rest) →
      ∃ t, runSteps (1 + ((acks ++ [some 0xFF]).flatMap writeAttemptMoves).length) s = .next t
        ∧ t.status =
            { s.status with
              busy := false
              done := true
              code := .ok
              attempts := BitVec.ofNat 8 (acks.length + 1) }
        ∧ t.errinfo = 0
        ∧ t.txlog.packets =
            s.txlog.packets ++ List.replicate (acks.length + 1) (writeRequest s kc n.toNat)
        ∧ t.crc = crcBytes 0x0000 (writeBody s kc n.toNat) ∧ request t = writeRequest s kc n.toNat
        ∧ t.res = s.res ∧ t.data = s.data ∧ t.bytes = s.bytes ∧ t.fval = s.fval ∧ t.fwid = s.fwid
        ∧ t.cfg = s.cfg ∧ t.sq.phase = .idle ∧ t.inputs = rest

/-- An XWR whose every ack is another byte or a timeout makes exactly CFG.TRIES attempts, sends as many
identical requests, and ends ERR_EXHAUSTED with the last ack answer as its information. -/
def Obligations.WriteNeverAckedExhaustsBudget : Prop :=
  ∀ (s : State) (kc : Byte) (n : BitVec 5) (acks : List (Option Byte)) (rest : List Input),
    s.status.busy = false → n.toNat ≤ 16 → WidthsLegal s n.toNat → s.port.portcfg = .ready →
    acks.length = s.cfg.tries.toNat → (∀ a ∈ acks, a ≠ some 0xFF) →
    s.inputs = cmdMove (.xwr kc n) :: (acks.flatMap writeAttemptMoves ++ rest) →
      ∃ t, runSteps (1 + (acks.flatMap writeAttemptMoves).length) s = .next t
        ∧ t.status =
            { s.status with
              busy := false, done := true, code := .errExhausted, attempts := s.cfg.tries }
        ∧ t.errinfo = (acks.getLast?).elim 0 ackInfo
        ∧ t.txlog.packets =
            s.txlog.packets ++ List.replicate acks.length (writeRequest s kc n.toNat)
        ∧ t.res = s.res ∧ t.data = s.data ∧ t.bytes = s.bytes ∧ t.fval = s.fval ∧ t.fwid = s.fwid
        ∧ t.cfg = s.cfg ∧ t.sq.phase = .idle ∧ t.inputs = rest

/-- An XRD whose device answers the fields and the matching checksum ends OK at its first attempt, with
every field's value zero-extended in RES, RVALID set, and one read request sent. -/
def Obligations.ReadReturnsVerifiedResponse : Prop :=
  ∀ (s : State) (kc : Byte) (n : BitVec 5) (vals : Nat → Word) (rest : List Input),
    s.status.busy = false → n.toNat ≤ 16 → WidthsLegal s n.toNat → s.port.portcfg = .ready →
    s.cfg.tries ≠ 0 →
    ∀ (fields : List Byte) (c : Half), fields = responseFields s vals n.toNat →
    c = crcBytes 0x0000 (responseHeader s kc ++ fields) →
    s.inputs =
      cmdMove (.xrd kc n) :: .portAnswer .ok :: .portAnswer .ok ::
        (deliverMoves (fields ++ [c.extractLsb' 8 8, c.extractLsb' 0 8]) ++ rest) →
      ∃ t, runSteps (3 + 2 * (fields.length + 2)) s = .next t
        ∧ t.status =
            { s.status with
              busy := false, done := true, rvalid := true, code := .ok, attempts := 1 }
        ∧ t.errinfo = 0
        ∧ (∀ i, i < n.toNat →
            (resAt t i).toNat = (vals i).toNat % 2 ^ (8 * (fwidAt s i).toNat))
        ∧ (∀ i, n.toNat ≤ i → resAt t i = resAt s i)
        ∧ t.txlog.packets = s.txlog.packets ++ [readRequest s kc] ∧ t.crc = c
        ∧ t.data = s.data ∧ t.bytes = s.bytes ∧ t.fval = s.fval ∧ t.fwid = s.fwid ∧ t.cfg = s.cfg
        ∧ t.sq.phase = .idle ∧ t.inputs = rest

/-- An XRD whose device stays silent, under FAIL_ATTEMPT, makes CFG.TRIES attempts and ends ERR_EXHAUSTED
with RES unchanged and RVALID = 0, also where the zero-filled response compares equal. -/
def Obligations.SilentDeviceNeverVerifies : Prop :=
  ∀ (s : State) (kc : Byte) (n : BitVec 5) (rest : List Input),
    s.status.busy = false → n.toNat ≤ 16 → WidthsLegal s n.toNat → s.port.portcfg = .ready →
    s.build.timeoutPolicy = .failAttempt →
    s.inputs =
      cmdMove (.xrd kc n) ::
        (List.replicate (s.cfg.tries.toNat * (4 + widthSum s n.toNat)) (.portAnswer .ok) ++ rest) →
      ∃ t, runSteps (1 + s.cfg.tries.toNat * (4 + widthSum s n.toNat)) s = .next t
        ∧ t.status =
            { s.status with
              busy := false
              done := true
              rvalid := false
              code := .errExhausted
              attempts := s.cfg.tries }
        ∧ t.res = s.res
        ∧ t.txlog.packets =
            s.txlog.packets ++ List.replicate s.cfg.tries.toNat (readRequest s kc)
        ∧ t.sq.phase = .idle ∧ t.inputs = rest

/-! ### Reset -/

/-- 70_reset_and_hazards.md R160 and R161: in every state, reset gives every register its reset value
(CFG reads 0x00000100 and every other offset 0), the sequencer is IDLE, an abandoned write may have sent
any first part of the request, the port's setup and the configuration stay, and the input buffer holds any
list of at most RX_DEPTH bytes. That TXLOG and `readLog` are kept, and that the part of the abandoned
request stands in TXLOG as a packet without an answer, is the model's (logs 10 and 11); the bound on the
input buffer is that of the move (log 7). -/
def Obligations.ResetGivesResetValues : Prop :=
  ∀ (s : State) (sent : Nat) (rxq : List Byte) (rest : List Input),
    s.inputs = .reset sent rxq :: rest → rxq.length ≤ s.build.rxDepth →
    ∃ t, step s = .next t
      ∧ (∀ off, regRead t off = if off = 0x008 then 0x00000100 else 0)
      ∧ t.sq.phase = .idle ∧ t.sq.k = 0 ∧ t.sq.lastfail = .none ∧ t.sq.lastinfo = 0
      ∧ t.port.portcfg = s.port.portcfg ∧ t.port.rxq = rxq ∧ t.build = s.build
      ∧ t.txlog.answers = s.txlog.answers
      ∧ t.txlog.packets =
          s.txlog.packets ++ (if s.sq.phase = .tx then [(request s).take sent] else [])
      ∧ t.inputs = rest ∧ t.readLog = s.readLog

/-- The machine right after reset: the reset values that the spec gives, and the invariant.
The clauses on the input buffer and the port in it rest on the model's choices (logs 7 and 8). -/
def Obligations.ResetStateMeetsInvariant : Prop :=
  (∀ off, regRead State.reset off = if off = 0x008 then 0x00000100 else 0)
    ∧ State.reset.sq.phase = .idle ∧ State.reset.sq.k = 0 ∧ State.reset.sq.lastfail = .none
    ∧ State.reset.sq.lastinfo = 0
    ∧ State.Inv State.reset ∧ AttemptBytes State.reset

/-! ### Invariants and rules of the whole machine -/

/-- Every step keeps the invariant: BUSY shows the phase, TXLEN stays within the buffer, the input buffer
within RX_DEPTH, and a running command has legal widths, a READY port, attempts within its budget and no
result. -/
def Obligations.StepKeepsSequencerInvariant : Prop :=
  ∀ s t : State, State.Inv s → step s = .next t → State.Inv t

/-- Every step keeps what an attempt has sent and folded: the output buffer holds the request of the wire
format and CRC the checksum of exactly the bytes that the rules name. -/
def Obligations.StepKeepsAttemptBytes : Prop :=
  ∀ s t : State, State.Inv s → AttemptBytes s → step s = .next t → AttemptBytes t

/-- 00_scope.md R1: no step changes a build parameter, and this hardware takes HDR_PAYLOAD and
FAIL_ATTEMPT. The port's setup state, which the platform gave it (10_state.md R27), does not change either:
that no step changes it is the model's choice (log 8). -/
def Obligations.BuildParametersAreFixed : Prop :=
  (∀ s t : State, step s = .next t → t.build = s.build ∧ t.port.portcfg = s.port.portcfg)
    ∧ State.reset.build.rspCrcScope = .hdrPayload
    ∧ State.reset.build.timeoutPolicy = .failAttempt

/-- While BUSY = 1 the operands of the running command are frozen: no step but reset changes CFG, FVAL,
FWID, DATA, BYTES or the latched command. -/
def Obligations.RunningCommandOperandsFrozen : Prop :=
  ∀ s t : State, s.status.busy = true → s.sq.phase ≠ .idle → step s = .next t →
    (∀ sent rxq rest, s.inputs ≠ .reset sent rxq :: rest) →
      t.cfg = s.cfg ∧ t.fval = s.fval ∧ t.fwid = s.fwid ∧ t.data = s.data ∧ t.bytes = s.bytes
        ∧ t.sq.op = s.sq.op ∧ t.sq.kc = s.sq.kc ∧ t.sq.n = s.sq.n

/-- Only XWR and XRD leave IDLE: a step that leaves it is the host's write of such a word to CMD. -/
def Obligations.OnlyTransportCommandsLeaveIdle : Prop :=
  ∀ s t : State, step s = .next t → s.sq.phase = .idle → t.sq.phase ≠ .idle →
    t.sq.phase = .flush ∧ t.status.busy = true
      ∧ ∃ w rest kc n, s.inputs = .hostWrite .word 0x000 w :: rest
        ∧ (decode w = .ok (.xwr kc n) ∨ decode w = .ok (.xrd kc n))

/-- RES changes only at the completion of a verified XRD response, together with RVALID = 1 and CODE = OK,
or at reset. -/
def Obligations.ResultsChangeOnlyWhenVerified : Prop :=
  ∀ s t : State, step s = .next t → t.res ≠ s.res →
    (∃ sent rxq rest, s.inputs = .reset sent rxq :: rest)
      ∨ (s.sq.phase = .rxc1 ∧ t.sq.phase = .idle ∧ t.status.code = .ok ∧ t.status.done = true
        ∧ t.status.rvalid = true ∧ t.crc = t.sq.rxcrc
        ∧ (t.build.timeoutPolicy = .failAttempt → t.sq.tof = false))

/-- An XRD that ends in any error leaves RVALID = 0 and every RES as it was. -/
def Obligations.FailedReadLeavesNoResult : Prop :=
  ∀ s t : State, State.Inv s → step s = .next t → s.sq.phase ≠ .idle → s.sq.op = .xrd →
    (∀ sent rxq rest, s.inputs ≠ .reset sent rxq :: rest) →
    t.sq.phase = .idle → t.status.code ≠ .ok → t.res = s.res ∧ t.status.rvalid = false

/-- 70_reset_and_hazards.md R172: the stream operations of a command are bounded by 3 x TRIES for XWR and
TRIES x (4 + Σ FWID) for XRD; every answer uses one up, down to none in IDLE; while no answer comes the
command runs on, and only reset ends it. -/
def Obligations.StreamOperationsAreBounded : Prop :=
  (∀ (s t : State) (kc : Byte) (n : BitVec 5), State.Inv s → s.status.busy = false →
      (exec (.xwr kc n) s = .next t → opsLeft t ≤ 3 * s.cfg.tries.toNat)
        ∧ (exec (.xrd kc n) s = .next t →
            opsLeft t ≤ s.cfg.tries.toNat * (4 + widthSum s n.toNat)))
    ∧ (∀ (s : State) (a : PortAnswer), State.Inv s → s.sq.phase ≠ .idle →
      ∃ t, onAnswer a s = .next t ∧ opsLeft t < opsLeft s)
    ∧ (∀ s : State, State.Inv s → (opsLeft s = 0 ↔ s.sq.phase = .idle))
    ∧ (∀ s t : State, State.Inv s → s.sq.phase ≠ .idle → step s = .next t →
      (∀ a rest, s.inputs ≠ .portAnswer a :: rest) →
      (∀ sent rxq rest, s.inputs ≠ .reset sent rxq :: rest) →
        t.sq = s.sq ∧ t.status.busy = s.status.busy ∧ opsLeft t = opsLeft s)

/-- The sequencer variables that reset leaves unspecified are never read before a transport command writes
them: from an idle block, any values of them give the same reads, the same stream operations and the same
record for every further step.
The model's own reset values of them (log 6) are thus irrelevant. -/
def Obligations.UnspecifiedVariablesAreInvisible : Prop :=
  ∀ (s : State) (q : Sequencer) (m : Nat), s.status.busy = false → s.sq.phase = .idle →
    SameOutcome (runSteps m s) (runSteps m (withUnspecified q s))

/-! ### The host's listing -/

/-- `wait` (30_encoding.md R76): each turn of it reads STATUS; while BUSY = 1 it stays the host's next
operation, whatever number of turns it takes, and it ends at the first read that finds BUSY = 0. Over any
turns of host and block, either the host is still in it or it ended in this way. `write` and `read` end
with it. The host beside the block is the model's form of a listing that runs (log 15). -/
def Obligations.WaitEndsWhenBusyClears : Prop :=
  (∀ (s : State) (rest : List HostOp), s.status.busy = false →
      hostTurn { listing := .wait :: rest, block := s } =
        .next { listing := rest, block := { s with readLog := s.readLog ++ [regRead s 0x004] } })
    ∧ (∀ (s : State) (rest : List HostOp) (m : Nat), s.status.busy = true →
      runHosted (List.replicate m .host) { listing := .wait :: rest, block := s } =
        .next
          { listing := .wait :: rest
            block := { s with readLog := s.readLog ++ List.replicate m (regRead s 0x004) } })
    ∧ (∀ (turns : List Turn) (s : State) (rest : List HostOp) (h : Hosted),
      runHosted turns { listing := .wait :: rest, block := s } = .next h →
        h.listing = .wait :: rest
          ∨ ∃ (before after : List Turn) (u : State), turns = before ++ .host :: after
            ∧ runHosted before { listing := .wait :: rest, block := s } =
              .next { listing := .wait :: rest, block := u }
            ∧ u.status.busy = false
            ∧ runHosted after
                { listing := rest, block := { u with readLog := u.readLog ++ [regRead u 0x004] } } =
              .next h)
    ∧ asmExpand .wait = [.wait]
    ∧ (∀ (kc : Byte) (n : BitVec 5),
      asmExpand (.write kc n) = [.st .cmd (encode (.xwr kc n)), .wait]
        ∧ asmExpand (.read kc n) = [.st .cmd (encode (.xrd kc n)), .wait])
end

