-- ==== Sys2Proof/Laws/State.lean ====
section
/-! SUPPORT. One lemma per field for each named update of the state, true by rfl: no later proof unfolds a
record update. -/

namespace Sys2Proof.Machine

@[simp] theorem dropWrite_status (s : State) :
    (dropWrite s).status = { s.status with ovr := true } := rfl
@[simp] theorem dropWrite_cfg (s : State) : (dropWrite s).cfg = s.cfg := rfl
@[simp] theorem dropWrite_crc (s : State) : (dropWrite s).crc = s.crc := rfl
@[simp] theorem dropWrite_data (s : State) : (dropWrite s).data = s.data := rfl
@[simp] theorem dropWrite_bytes (s : State) : (dropWrite s).bytes = s.bytes := rfl
@[simp] theorem dropWrite_errinfo (s : State) : (dropWrite s).errinfo = s.errinfo := rfl
@[simp] theorem dropWrite_txlen (s : State) : (dropWrite s).txlen = s.txlen := rfl
@[simp] theorem dropWrite_txbuf (s : State) : (dropWrite s).txbuf = s.txbuf := rfl
@[simp] theorem dropWrite_fval (s : State) : (dropWrite s).fval = s.fval := rfl
@[simp] theorem dropWrite_fwid (s : State) : (dropWrite s).fwid = s.fwid := rfl
@[simp] theorem dropWrite_res (s : State) : (dropWrite s).res = s.res := rfl
@[simp] theorem dropWrite_sq (s : State) : (dropWrite s).sq = s.sq := rfl
@[simp] theorem dropWrite_port (s : State) : (dropWrite s).port = s.port := rfl
@[simp] theorem dropWrite_txlog (s : State) : (dropWrite s).txlog = s.txlog := rfl
@[simp] theorem dropWrite_build (s : State) : (dropWrite s).build = s.build := rfl
@[simp] theorem dropWrite_inputs (s : State) : (dropWrite s).inputs = s.inputs := rfl
@[simp] theorem dropWrite_readLog (s : State) : (dropWrite s).readLog = s.readLog := rfl

@[simp] theorem accept_status (s : State) :
    (accept s).status = { s.status with done := false, code := .ok, attempts := 0 } := rfl
@[simp] theorem accept_cfg (s : State) : (accept s).cfg = s.cfg := rfl
@[simp] theorem accept_crc (s : State) : (accept s).crc = s.crc := rfl
@[simp] theorem accept_data (s : State) : (accept s).data = s.data := rfl
@[simp] theorem accept_bytes (s : State) : (accept s).bytes = s.bytes := rfl
@[simp] theorem accept_errinfo (s : State) : (accept s).errinfo = 0 := rfl
@[simp] theorem accept_txlen (s : State) : (accept s).txlen = s.txlen := rfl
@[simp] theorem accept_txbuf (s : State) : (accept s).txbuf = s.txbuf := rfl
@[simp] theorem accept_fval (s : State) : (accept s).fval = s.fval := rfl
@[simp] theorem accept_fwid (s : State) : (accept s).fwid = s.fwid := rfl
@[simp] theorem accept_res (s : State) : (accept s).res = s.res := rfl
@[simp] theorem accept_sq (s : State) : (accept s).sq = s.sq := rfl
@[simp] theorem accept_port (s : State) : (accept s).port = s.port := rfl
@[simp] theorem accept_txlog (s : State) : (accept s).txlog = s.txlog := rfl
@[simp] theorem accept_build (s : State) : (accept s).build = s.build := rfl
@[simp] theorem accept_inputs (s : State) : (accept s).inputs = s.inputs := rfl
@[simp] theorem accept_readLog (s : State) : (accept s).readLog = s.readLog := rfl

@[simp] theorem finishOk_status (s : State) :
    (finishOk s).status = { s.status with code := .ok, busy := false, done := true } := rfl
@[simp] theorem finishOk_cfg (s : State) : (finishOk s).cfg = s.cfg := rfl
@[simp] theorem finishOk_crc (s : State) : (finishOk s).crc = s.crc := rfl
@[simp] theorem finishOk_data (s : State) : (finishOk s).data = s.data := rfl
@[simp] theorem finishOk_bytes (s : State) : (finishOk s).bytes = s.bytes := rfl
@[simp] theorem finishOk_errinfo (s : State) : (finishOk s).errinfo = s.errinfo := rfl
@[simp] theorem finishOk_txlen (s : State) : (finishOk s).txlen = s.txlen := rfl
@[simp] theorem finishOk_txbuf (s : State) : (finishOk s).txbuf = s.txbuf := rfl
@[simp] theorem finishOk_fval (s : State) : (finishOk s).fval = s.fval := rfl
@[simp] theorem finishOk_fwid (s : State) : (finishOk s).fwid = s.fwid := rfl
@[simp] theorem finishOk_res (s : State) : (finishOk s).res = s.res := rfl
@[simp] theorem finishOk_sq (s : State) : (finishOk s).sq = { s.sq with phase := .idle } := rfl
@[simp] theorem finishOk_port (s : State) : (finishOk s).port = s.port := rfl
@[simp] theorem finishOk_txlog (s : State) : (finishOk s).txlog = s.txlog := rfl
@[simp] theorem finishOk_build (s : State) : (finishOk s).build = s.build := rfl
@[simp] theorem finishOk_inputs (s : State) : (finishOk s).inputs = s.inputs := rfl
@[simp] theorem finishOk_readLog (s : State) : (finishOk s).readLog = s.readLog := rfl

@[simp] theorem raiseErr_status (e : Code) (info : Word) (s : State) :
    (raiseErr e info s).status = { s.status with code := e, busy := false, done := true } := rfl
@[simp] theorem raiseErr_cfg (e : Code) (info : Word) (s : State) :
    (raiseErr e info s).cfg = s.cfg := rfl
@[simp] theorem raiseErr_crc (e : Code) (info : Word) (s : State) :
    (raiseErr e info s).crc = s.crc := rfl
@[simp] theorem raiseErr_data (e : Code) (info : Word) (s : State) :
    (raiseErr e info s).data = s.data := rfl
@[simp] theorem raiseErr_bytes (e : Code) (info : Word) (s : State) :
    (raiseErr e info s).bytes = s.bytes := rfl
@[simp] theorem raiseErr_errinfo (e : Code) (info : Word) (s : State) :
    (raiseErr e info s).errinfo = info := rfl
@[simp] theorem raiseErr_txlen (e : Code) (info : Word) (s : State) :
    (raiseErr e info s).txlen = s.txlen := rfl
@[simp] theorem raiseErr_txbuf (e : Code) (info : Word) (s : State) :
    (raiseErr e info s).txbuf = s.txbuf := rfl
@[simp] theorem raiseErr_fval (e : Code) (info : Word) (s : State) :
    (raiseErr e info s).fval = s.fval := rfl
@[simp] theorem raiseErr_fwid (e : Code) (info : Word) (s : State) :
    (raiseErr e info s).fwid = s.fwid := rfl
@[simp] theorem raiseErr_res (e : Code) (info : Word) (s : State) :
    (raiseErr e info s).res = s.res := rfl
@[simp] theorem raiseErr_sq (e : Code) (info : Word) (s : State) :
    (raiseErr e info s).sq = { s.sq with phase := .idle } := rfl
@[simp] theorem raiseErr_port (e : Code) (info : Word) (s : State) :
    (raiseErr e info s).port = s.port := rfl
@[simp] theorem raiseErr_txlog (e : Code) (info : Word) (s : State) :
    (raiseErr e info s).txlog = s.txlog := rfl
@[simp] theorem raiseErr_build (e : Code) (info : Word) (s : State) :
    (raiseErr e info s).build = s.build := rfl
@[simp] theorem raiseErr_inputs (e : Code) (info : Word) (s : State) :
    (raiseErr e info s).inputs = s.inputs := rfl
@[simp] theorem raiseErr_readLog (e : Code) (info : Word) (s : State) :
    (raiseErr e info s).readLog = s.readLog := rfl

@[simp] theorem appendTx_status (b : Byte) (s : State) : (appendTx b s).status = s.status := rfl
@[simp] theorem appendTx_cfg (b : Byte) (s : State) : (appendTx b s).cfg = s.cfg := rfl
@[simp] theorem appendTx_crc (b : Byte) (s : State) : (appendTx b s).crc = s.crc := rfl
@[simp] theorem appendTx_data (b : Byte) (s : State) : (appendTx b s).data = s.data := rfl
@[simp] theorem appendTx_bytes (b : Byte) (s : State) : (appendTx b s).bytes = s.bytes := rfl
@[simp] theorem appendTx_errinfo (b : Byte) (s : State) : (appendTx b s).errinfo = s.errinfo := rfl
@[simp] theorem appendTx_txlen (b : Byte) (s : State) : (appendTx b s).txlen = s.txlen + 1 := rfl
@[simp] theorem appendTx_txbuf (b : Byte) (s : State) :
    (appendTx b s).txbuf = s.txbuf.setIfInBounds s.txlen.toNat b := rfl
@[simp] theorem appendTx_fval (b : Byte) (s : State) : (appendTx b s).fval = s.fval := rfl
@[simp] theorem appendTx_fwid (b : Byte) (s : State) : (appendTx b s).fwid = s.fwid := rfl
@[simp] theorem appendTx_res (b : Byte) (s : State) : (appendTx b s).res = s.res := rfl
@[simp] theorem appendTx_sq (b : Byte) (s : State) : (appendTx b s).sq = s.sq := rfl
@[simp] theorem appendTx_port (b : Byte) (s : State) : (appendTx b s).port = s.port := rfl
@[simp] theorem appendTx_txlog (b : Byte) (s : State) : (appendTx b s).txlog = s.txlog := rfl
@[simp] theorem appendTx_build (b : Byte) (s : State) : (appendTx b s).build = s.build := rfl
@[simp] theorem appendTx_inputs (b : Byte) (s : State) : (appendTx b s).inputs = s.inputs := rfl
@[simp] theorem appendTx_readLog (b : Byte) (s : State) : (appendTx b s).readLog = s.readLog := rfl

@[simp] theorem emitTx_status (b : Byte) (s : State) : (emitTx b s).status = s.status := rfl
@[simp] theorem emitTx_cfg (b : Byte) (s : State) : (emitTx b s).cfg = s.cfg := rfl
@[simp] theorem emitTx_crc (b : Byte) (s : State) : (emitTx b s).crc = crcStep s.crc b := rfl
@[simp] theorem emitTx_data (b : Byte) (s : State) : (emitTx b s).data = s.data := rfl
@[simp] theorem emitTx_bytes (b : Byte) (s : State) : (emitTx b s).bytes = s.bytes := rfl
@[simp] theorem emitTx_errinfo (b : Byte) (s : State) : (emitTx b s).errinfo = s.errinfo := rfl
@[simp] theorem emitTx_txlen (b : Byte) (s : State) : (emitTx b s).txlen = s.txlen + 1 := rfl
@[simp] theorem emitTx_txbuf (b : Byte) (s : State) :
    (emitTx b s).txbuf = s.txbuf.setIfInBounds s.txlen.toNat b := rfl
@[simp] theorem emitTx_fval (b : Byte) (s : State) : (emitTx b s).fval = s.fval := rfl
@[simp] theorem emitTx_fwid (b : Byte) (s : State) : (emitTx b s).fwid = s.fwid := rfl
@[simp] theorem emitTx_res (b : Byte) (s : State) : (emitTx b s).res = s.res := rfl
@[simp] theorem emitTx_sq (b : Byte) (s : State) : (emitTx b s).sq = s.sq := rfl
@[simp] theorem emitTx_port (b : Byte) (s : State) : (emitTx b s).port = s.port := rfl
@[simp] theorem emitTx_txlog (b : Byte) (s : State) : (emitTx b s).txlog = s.txlog := rfl
@[simp] theorem emitTx_build (b : Byte) (s : State) : (emitTx b s).build = s.build := rfl
@[simp] theorem emitTx_inputs (b : Byte) (s : State) : (emitTx b s).inputs = s.inputs := rfl
@[simp] theorem emitTx_readLog (b : Byte) (s : State) : (emitTx b s).readLog = s.readLog := rfl

@[simp] theorem recordAnswer_status (r : PortRecord) (s : State) :
    (recordAnswer r s).status = s.status := rfl
@[simp] theorem recordAnswer_cfg (r : PortRecord) (s : State) :
    (recordAnswer r s).cfg = s.cfg := rfl
@[simp] theorem recordAnswer_crc (r : PortRecord) (s : State) :
    (recordAnswer r s).crc = s.crc := rfl
@[simp] theorem recordAnswer_data (r : PortRecord) (s : State) :
    (recordAnswer r s).data = s.data := rfl
@[simp] theorem recordAnswer_bytes (r : PortRecord) (s : State) :
    (recordAnswer r s).bytes = s.bytes := rfl
@[simp] theorem recordAnswer_errinfo (r : PortRecord) (s : State) :
    (recordAnswer r s).errinfo = s.errinfo := rfl
@[simp] theorem recordAnswer_txlen (r : PortRecord) (s : State) :
    (recordAnswer r s).txlen = s.txlen := rfl
@[simp] theorem recordAnswer_txbuf (r : PortRecord) (s : State) :
    (recordAnswer r s).txbuf = s.txbuf := rfl
@[simp] theorem recordAnswer_fval (r : PortRecord) (s : State) :
    (recordAnswer r s).fval = s.fval := rfl
@[simp] theorem recordAnswer_fwid (r : PortRecord) (s : State) :
    (recordAnswer r s).fwid = s.fwid := rfl
@[simp] theorem recordAnswer_res (r : PortRecord) (s : State) :
    (recordAnswer r s).res = s.res := rfl
@[simp] theorem recordAnswer_sq (r : PortRecord) (s : State) : (recordAnswer r s).sq = s.sq := rfl
@[simp] theorem recordAnswer_port (r : PortRecord) (s : State) :
    (recordAnswer r s).port = s.port := rfl
@[simp] theorem recordAnswer_txlog (r : PortRecord) (s : State) :
    (recordAnswer r s).txlog = { s.txlog with answers := s.txlog.answers ++ [r] } := rfl
@[simp] theorem recordAnswer_build (r : PortRecord) (s : State) :
    (recordAnswer r s).build = s.build := rfl
@[simp] theorem recordAnswer_inputs (r : PortRecord) (s : State) :
    (recordAnswer r s).inputs = s.inputs := rfl
@[simp] theorem recordAnswer_readLog (r : PortRecord) (s : State) :
    (recordAnswer r s).readLog = s.readLog := rfl

@[simp] theorem recordPacket_status (bs : List Byte) (s : State) :
    (recordPacket bs s).status = s.status := rfl
@[simp] theorem recordPacket_cfg (bs : List Byte) (s : State) :
    (recordPacket bs s).cfg = s.cfg := rfl
@[simp] theorem recordPacket_crc (bs : List Byte) (s : State) :
    (recordPacket bs s).crc = s.crc := rfl
@[simp] theorem recordPacket_data (bs : List Byte) (s : State) :
    (recordPacket bs s).data = s.data := rfl
@[simp] theorem recordPacket_bytes (bs : List Byte) (s : State) :
    (recordPacket bs s).bytes = s.bytes := rfl
@[simp] theorem recordPacket_errinfo (bs : List Byte) (s : State) :
    (recordPacket bs s).errinfo = s.errinfo := rfl
@[simp] theorem recordPacket_txlen (bs : List Byte) (s : State) :
    (recordPacket bs s).txlen = s.txlen := rfl
@[simp] theorem recordPacket_txbuf (bs : List Byte) (s : State) :
    (recordPacket bs s).txbuf = s.txbuf := rfl
@[simp] theorem recordPacket_fval (bs : List Byte) (s : State) :
    (recordPacket bs s).fval = s.fval := rfl
@[simp] theorem recordPacket_fwid (bs : List Byte) (s : State) :
    (recordPacket bs s).fwid = s.fwid := rfl
@[simp] theorem recordPacket_res (bs : List Byte) (s : State) :
    (recordPacket bs s).res = s.res := rfl
@[simp] theorem recordPacket_sq (bs : List Byte) (s : State) : (recordPacket bs s).sq = s.sq := rfl
@[simp] theorem recordPacket_port (bs : List Byte) (s : State) :
    (recordPacket bs s).port = s.port := rfl
@[simp] theorem recordPacket_txlog (bs : List Byte) (s : State) :
    (recordPacket bs s).txlog = { s.txlog with packets := s.txlog.packets ++ [bs] } := rfl
@[simp] theorem recordPacket_build (bs : List Byte) (s : State) :
    (recordPacket bs s).build = s.build := rfl
@[simp] theorem recordPacket_inputs (bs : List Byte) (s : State) :
    (recordPacket bs s).inputs = s.inputs := rfl
@[simp] theorem recordPacket_readLog (bs : List Byte) (s : State) :
    (recordPacket bs s).readLog = s.readLog := rfl

@[simp] theorem attemptStart_status (s : State) : (attemptStart s).status = s.status := rfl
@[simp] theorem attemptStart_cfg (s : State) : (attemptStart s).cfg = s.cfg := rfl
@[simp] theorem attemptStart_crc (s : State) : (attemptStart s).crc = 0x0000 := rfl
@[simp] theorem attemptStart_data (s : State) : (attemptStart s).data = s.data := rfl
@[simp] theorem attemptStart_bytes (s : State) : (attemptStart s).bytes = s.bytes := rfl
@[simp] theorem attemptStart_errinfo (s : State) : (attemptStart s).errinfo = s.errinfo := rfl
@[simp] theorem attemptStart_txlen (s : State) : (attemptStart s).txlen = 0 := rfl
@[simp] theorem attemptStart_txbuf (s : State) : (attemptStart s).txbuf = s.txbuf := rfl
@[simp] theorem attemptStart_fval (s : State) : (attemptStart s).fval = s.fval := rfl
@[simp] theorem attemptStart_fwid (s : State) : (attemptStart s).fwid = s.fwid := rfl
@[simp] theorem attemptStart_res (s : State) : (attemptStart s).res = s.res := rfl
@[simp] theorem attemptStart_sq (s : State) :
    (attemptStart s).sq = { s.sq with tof := false, phase := .flush } := rfl
@[simp] theorem attemptStart_port (s : State) : (attemptStart s).port = s.port := rfl
@[simp] theorem attemptStart_txlog (s : State) : (attemptStart s).txlog = s.txlog := rfl
@[simp] theorem attemptStart_build (s : State) : (attemptStart s).build = s.build := rfl
@[simp] theorem attemptStart_inputs (s : State) : (attemptStart s).inputs = s.inputs := rfl
@[simp] theorem attemptStart_readLog (s : State) : (attemptStart s).readLog = s.readLog := rfl

@[simp] theorem setPhase_status (p : Phase) (s : State) : (setPhase p s).status = s.status := rfl
@[simp] theorem setPhase_cfg (p : Phase) (s : State) : (setPhase p s).cfg = s.cfg := rfl
@[simp] theorem setPhase_crc (p : Phase) (s : State) : (setPhase p s).crc = s.crc := rfl
@[simp] theorem setPhase_data (p : Phase) (s : State) : (setPhase p s).data = s.data := rfl
@[simp] theorem setPhase_bytes (p : Phase) (s : State) : (setPhase p s).bytes = s.bytes := rfl
@[simp] theorem setPhase_errinfo (p : Phase) (s : State) : (setPhase p s).errinfo = s.errinfo := rfl
@[simp] theorem setPhase_txlen (p : Phase) (s : State) : (setPhase p s).txlen = s.txlen := rfl
@[simp] theorem setPhase_txbuf (p : Phase) (s : State) : (setPhase p s).txbuf = s.txbuf := rfl
@[simp] theorem setPhase_fval (p : Phase) (s : State) : (setPhase p s).fval = s.fval := rfl
@[simp] theorem setPhase_fwid (p : Phase) (s : State) : (setPhase p s).fwid = s.fwid := rfl
@[simp] theorem setPhase_res (p : Phase) (s : State) : (setPhase p s).res = s.res := rfl
@[simp] theorem setPhase_sq (p : Phase) (s : State) :
    (setPhase p s).sq = { s.sq with phase := p } := rfl
@[simp] theorem setPhase_port (p : Phase) (s : State) : (setPhase p s).port = s.port := rfl
@[simp] theorem setPhase_txlog (p : Phase) (s : State) : (setPhase p s).txlog = s.txlog := rfl
@[simp] theorem setPhase_build (p : Phase) (s : State) : (setPhase p s).build = s.build := rfl
@[simp] theorem setPhase_inputs (p : Phase) (s : State) : (setPhase p s).inputs = s.inputs := rfl
@[simp] theorem setPhase_readLog (p : Phase) (s : State) : (setPhase p s).readLog = s.readLog := rfl

@[simp] theorem latch_status (kind : Op) (kc : Byte) (n : BitVec 5) (s : State) :
    (latch kind kc n s).status = { s.status with rvalid := s.status.rvalid && kind != .xrd } := rfl
@[simp] theorem latch_cfg (kind : Op) (kc : Byte) (n : BitVec 5) (s : State) :
    (latch kind kc n s).cfg = s.cfg := rfl
@[simp] theorem latch_crc (kind : Op) (kc : Byte) (n : BitVec 5) (s : State) :
    (latch kind kc n s).crc = s.crc := rfl
@[simp] theorem latch_data (kind : Op) (kc : Byte) (n : BitVec 5) (s : State) :
    (latch kind kc n s).data = s.data := rfl
@[simp] theorem latch_bytes (kind : Op) (kc : Byte) (n : BitVec 5) (s : State) :
    (latch kind kc n s).bytes = s.bytes := rfl
@[simp] theorem latch_errinfo (kind : Op) (kc : Byte) (n : BitVec 5) (s : State) :
    (latch kind kc n s).errinfo = s.errinfo := rfl
@[simp] theorem latch_txlen (kind : Op) (kc : Byte) (n : BitVec 5) (s : State) :
    (latch kind kc n s).txlen = s.txlen := rfl
@[simp] theorem latch_txbuf (kind : Op) (kc : Byte) (n : BitVec 5) (s : State) :
    (latch kind kc n s).txbuf = s.txbuf := rfl
@[simp] theorem latch_fval (kind : Op) (kc : Byte) (n : BitVec 5) (s : State) :
    (latch kind kc n s).fval = s.fval := rfl
@[simp] theorem latch_fwid (kind : Op) (kc : Byte) (n : BitVec 5) (s : State) :
    (latch kind kc n s).fwid = s.fwid := rfl
@[simp] theorem latch_res (kind : Op) (kc : Byte) (n : BitVec 5) (s : State) :
    (latch kind kc n s).res = s.res := rfl
@[simp] theorem latch_sq (kind : Op) (kc : Byte) (n : BitVec 5) (s : State) :
    (latch kind kc n s).sq = { s.sq with op := kind, kc := kc, n := n, k := 0, lastfail := .none, lastinfo := 0 } := rfl
@[simp] theorem latch_port (kind : Op) (kc : Byte) (n : BitVec 5) (s : State) :
    (latch kind kc n s).port = s.port := rfl
@[simp] theorem latch_txlog (kind : Op) (kc : Byte) (n : BitVec 5) (s : State) :
    (latch kind kc n s).txlog = s.txlog := rfl
@[simp] theorem latch_build (kind : Op) (kc : Byte) (n : BitVec 5) (s : State) :
    (latch kind kc n s).build = s.build := rfl
@[simp] theorem latch_inputs (kind : Op) (kc : Byte) (n : BitVec 5) (s : State) :
    (latch kind kc n s).inputs = s.inputs := rfl
@[simp] theorem latch_readLog (kind : Op) (kc : Byte) (n : BitVec 5) (s : State) :
    (latch kind kc n s).readLog = s.readLog := rfl

@[simp] theorem resetBlock_status (s : State) : (resetBlock s).status = State.reset.status := rfl
@[simp] theorem resetBlock_cfg (s : State) : (resetBlock s).cfg = State.reset.cfg := rfl
@[simp] theorem resetBlock_crc (s : State) : (resetBlock s).crc = State.reset.crc := rfl
@[simp] theorem resetBlock_data (s : State) : (resetBlock s).data = State.reset.data := rfl
@[simp] theorem resetBlock_bytes (s : State) : (resetBlock s).bytes = State.reset.bytes := rfl
@[simp] theorem resetBlock_errinfo (s : State) : (resetBlock s).errinfo = State.reset.errinfo := rfl
@[simp] theorem resetBlock_txlen (s : State) : (resetBlock s).txlen = State.reset.txlen := rfl
@[simp] theorem resetBlock_txbuf (s : State) : (resetBlock s).txbuf = State.reset.txbuf := rfl
@[simp] theorem resetBlock_fval (s : State) : (resetBlock s).fval = State.reset.fval := rfl
@[simp] theorem resetBlock_fwid (s : State) : (resetBlock s).fwid = State.reset.fwid := rfl
@[simp] theorem resetBlock_res (s : State) : (resetBlock s).res = State.reset.res := rfl
@[simp] theorem resetBlock_sq (s : State) : (resetBlock s).sq = State.reset.sq := rfl
@[simp] theorem resetBlock_port (s : State) : (resetBlock s).port = s.port := rfl
@[simp] theorem resetBlock_txlog (s : State) : (resetBlock s).txlog = s.txlog := rfl
@[simp] theorem resetBlock_build (s : State) : (resetBlock s).build = s.build := rfl
@[simp] theorem resetBlock_inputs (s : State) : (resetBlock s).inputs = s.inputs := rfl
@[simp] theorem resetBlock_readLog (s : State) : (resetBlock s).readLog = s.readLog := rfl

end Sys2Proof.Machine
end

