-- ==== Sys2Proof/Laws/Ops.lean ====
section
/-! SUPPORT. For each shared operation, one lemma that says once everything it can do; proofs cite these
and do not unfold the operation. -/

namespace Sys2Proof.Machine

/-! ### Issue and completion -/

theorem issue_of_busy {s : State} (body : State → State) (h : s.status.busy = true) :
    issue body s = dropWrite s := by simp [issue, h]

theorem issue_of_idle {s : State} (body : State → State) (h : s.status.busy = false) :
    issue body s = body (accept s) := by simp [issue, h]

/-- `issue` either drops the command or runs its body on the accepted state. -/
theorem issue_cases (body : State → State) (s : State) :
    (s.status.busy = true ∧ issue body s = dropWrite s)
      ∨ (s.status.busy = false ∧ issue body s = body (accept s)) := by
  cases h : s.status.busy
  · exact .inr ⟨rfl, issue_of_idle body h⟩
  · exact .inl ⟨rfl, issue_of_busy body h⟩

theorem finishOk_accept (s : State) : finishOk (accept s) = completedOk s := rfl

theorem raiseErr_illegal_accept (w : Word) (s : State) :
    raiseErr .errIllegal w (accept s) = completedIllegal w s := rfl

theorem illegalCommand_of_idle {s : State} (w : Word) (h : s.status.busy = false) :
    illegalCommand w s = completedIllegal w s := by
  simp [illegalCommand, issue_of_idle _ h, raiseErr_illegal_accept]

/-- No command stops the machine: `exec` answers a next state for every command in every state. -/
theorem exec_answers_next (i : Instr) (s : State) : ∃ t, exec i s = .next t := by
  cases i with
  | crcFeedb c => simp only [exec, execCrcFeedb]; split <;> exact ⟨_, rfl⟩
  | xwr kc n => simp only [exec, execXwr]; split <;> exact ⟨_, rfl⟩
  | xrd kc n => simp only [exec, execXrd]; split <;> exact ⟨_, rfl⟩
  | _ => exact ⟨_, rfl⟩

/-! ### The output buffer -/

theorem appendTx_frame (b : Byte) (s : State) :
    appendTx b s = { s with txbuf := (appendTx b s).txbuf, txlen := s.txlen + 1 } := rfl

/-- `emitAll` writes CRC, TXBUF and TXLEN only, and CRC takes the fold of the list. -/
theorem emitAll_frame (bs : List Byte) (s : State) :
    emitAll bs s =
      { s with
        crc := crcBytes s.crc bs, txbuf := (emitAll bs s).txbuf, txlen := (emitAll bs s).txlen } := by
  induction bs generalizing s with
  | nil => rfl
  | cons b bs ih =>
    have h := ih (emitTx b s)
    simp only [emitAll, crcBytes, List.foldl_cons] at h ⊢
    conv_lhs => rw [h]
    rfl

theorem emitAll_txlen (bs : List Byte) (s : State) :
    (emitAll bs s).txlen = s.txlen + BitVec.ofNat 7 bs.length := by
  induction bs generalizing s with
  | nil => simp [emitAll]
  | cons b bs ih =>
    have h := ih (emitTx b s)
    simp only [emitAll, List.foldl_cons, emitTx_txlen] at h ⊢
    rw [h]
    apply BitVec.eq_of_toNat_eq
    simp [BitVec.toNat_add]
    omega

/-- `copyBelow` gives the entries below `n` of the source and keeps the others. -/
theorem copyBelow_getElem? (n : Nat) (src dst : Vector Word 16) (q : Nat) (hq : q < 16) :
    (copyBelow n src dst)[q]? = if q < n then src[q]? else dst[q]? := by
  induction n with
  | zero => simp [copyBelow]
  | succ m ih =>
    simp only [copyBelow, Vector.getElem?_setIfInBounds, ih]
    by_cases h : m = q
    · subst h; simp [hq]
    · have : q < m + 1 ↔ q < m := by omega
      simp [h, this]

/-! ### The stream port -/

/-- What a flush answers and leaves. -/
theorem streamFlush_cases (a : PortAnswer) (s : State) :
    (a = .ok ∧ streamFlush a s =
        (.ok, recordAnswer .flushOk { s with port := { s.port with rxq := [] } }))
      ∨ (∃ info keep sent, a = .ioErr info keep sent ∧ streamFlush a s =
        (.ioErr info,
          recordAnswer (.flushErr info)
            { s with port := { s.port with rxq := keptBy keep s.port.rxq } })) := by
  cases a with
  | ok => exact .inl ⟨rfl, rfl⟩
  | ioErr info keep sent => exact .inr ⟨info, keep, sent, rfl, rfl⟩

/-- What a write answers and records. -/
theorem streamWrite_cases (bs : List Byte) (a : PortAnswer) (s : State) :
    (a = .ok ∧ streamWrite bs a s = (.ok, recordAnswer (.writeOk bs) (recordPacket bs s)))
      ∨ (∃ info keep sent, a = .ioErr info keep sent ∧ streamWrite bs a s =
        (.ioErr info,
          recordAnswer (.writeErr info (bs.take sent)) (recordPacket (bs.take sent) s))) := by
  cases a with
  | ok => exact .inl ⟨rfl, rfl⟩
  | ioErr info keep sent => exact .inr ⟨info, keep, sent, rfl, rfl⟩

/-- What a one-byte read answers and leaves. -/
theorem streamRead1_cases (a : PortAnswer) (s : State) :
    (∃ b rest, a = .ok ∧ s.port.rxq = b :: rest ∧ streamRead1 a s =
        (.byte b, recordAnswer (.readByte b) { s with port := { s.port with rxq := rest } }))
      ∨ (a = .ok ∧ s.port.rxq = [] ∧ streamRead1 a s = (.timeout, recordAnswer .readTimeout s))
      ∨ (∃ info keep sent, a = .ioErr info keep sent ∧
        streamRead1 a s = (.ioErr info, recordAnswer (.readErr info) s)) := by
  cases a with
  | ioErr info keep sent => exact .inr (.inr ⟨info, keep, sent, rfl, rfl⟩)
  | ok =>
    cases h : s.port.rxq with
    | nil => exact .inr (.inl ⟨rfl, rfl, by simp [streamRead1, h]⟩)
    | cons b rest => exact .inl ⟨b, rest, rfl, rfl, by simp [streamRead1, h]⟩

theorem keptBy_sublist (keep : List Bool) (xs : List Byte) : (keptBy keep xs).Sublist xs := by
  induction keep generalizing xs with
  | nil => simp [keptBy]
  | cons k ks ih =>
    cases xs with
    | nil => simp [keptBy]
    | cons x xs =>
      have h := ih xs
      cases k
      · simpa [keptBy] using h.cons x
      · simpa [keptBy] using h.cons_cons x

theorem deviceArrival_cases (b : Byte) (s : State) :
    (s.port.rxq.length < s.build.rxDepth
        ∧ deviceArrival b s = { s with port := { s.port with rxq := s.port.rxq ++ [b] } })
      ∨ (¬ s.port.rxq.length < s.build.rxDepth ∧ deviceArrival b s = s) := by
  by_cases h : s.port.rxq.length < s.build.rxDepth
  · exact .inl ⟨h, by simp [deviceArrival, h]⟩
  · exact .inr ⟨h, by simp [deviceArrival, h]⟩

/-! ### The retry loop -/

theorem exhausted_eq (s : State) :
    exhausted s =
      raiseErr (if s.sq.lastfail = .io then .errIo else .errExhausted) s.sq.lastinfo s := by
  unfold exhausted; split <;> rfl

/-- `nextAttempt` ends the command in exhaustion, or starts one more attempt. -/
theorem nextAttempt_cases (s : State) :
    (s.sq.k = s.cfg.tries ∧ nextAttempt s = exhausted s)
      ∨ (s.sq.k ≠ s.cfg.tries ∧ nextAttempt s =
        { s with
          status := { s.status with attempts := s.sq.k + 1 }
          crc := 0x0000
          txlen := 0
          sq := { s.sq with k := s.sq.k + 1, tof := false, phase := .flush } }) := by
  by_cases h : s.sq.k = s.cfg.tries
  · exact .inl ⟨h, by simp [nextAttempt, h]⟩
  · exact .inr ⟨h, by simp only [nextAttempt, if_neg h]; rfl⟩

/-- `ioError` fails the attempt or ends the command, as CFG.IORETRY says. -/
theorem ioError_cases (info : Word) (s : State) :
    (s.cfg.ioRetry = true ∧ ioError info s = failAttempt .io info s)
      ∨ (s.cfg.ioRetry = false ∧ ioError info s =
        raiseErr .errIo info { s with sq := { s.sq with lastfail := .io, lastinfo := info } }) := by
  cases h : s.cfg.ioRetry
  · exact .inr ⟨rfl, by simp [ioError, h]⟩
  · exact .inl ⟨rfl, by simp [ioError, h]⟩

/-- `acceptTransport` fails its width check, fails its setup check, or starts the first attempt. -/
theorem acceptTransport_cases (kind : Op) (kc : Byte) (n : BitVec 5) (s : State) :
    (∃ i, firstBadWidth s n.toNat = some i ∧ acceptTransport kind kc n s =
        raiseErr .errWidth (widthInfo s i) (latch kind kc n s))
      ∨ (firstBadWidth s n.toNat = none ∧ ∃ info, s.port.portcfg = .cfgErr info
        ∧ acceptTransport kind kc n s = raiseErr .errConfig info (latch kind kc n s))
      ∨ (firstBadWidth s n.toNat = none ∧ s.port.portcfg = .ready
        ∧ acceptTransport kind kc n s =
          nextAttempt
            { latch kind kc n s with
              status := { (latch kind kc n s).status with busy := true } }) := by
  have hw : firstBadWidth (latch kind kc n s) n.toNat = firstBadWidth s n.toNat := rfl
  cases h : firstBadWidth s n.toNat with
  | some i => exact .inl ⟨i, rfl, by simp only [acceptTransport, hw, h]; rfl⟩
  | none =>
    cases hp : s.port.portcfg with
    | cfgErr info => exact .inr (.inl ⟨rfl, info, rfl, by simp [acceptTransport, hw, h, hp]⟩)
    | ready => exact .inr (.inr ⟨rfl, rfl, by simp [acceptTransport, hw, h, hp]⟩)

theorem firstBadWidth_eq_none_iff (s : State) (n : Nat) :
    firstBadWidth s n = none ↔ WidthsLegal s n := by
  simp only [firstBadWidth, List.find?_eq_none, List.mem_range, WidthsLegal, legalWidth]
  refine forall_congr' fun i => imp_congr_right fun _ => ?_
  simp; tauto

/-- `xwrBuild` writes CRC, TXBUF and TXLEN only. -/
theorem xwrBuild_frame (s : State) :
    xwrBuild s =
      { s with
        crc := crcBytes s.crc (writeBody s s.sq.kc s.sq.n.toNat)
        txbuf := (xwrBuild s).txbuf
        txlen := (xwrBuild s).txlen } := by
  unfold xwrBuild
  simp only
  rw [emitAll_frame]
  rfl

/-- `xrdBuild` writes CRC, TXBUF and TXLEN only. -/
theorem xrdBuild_frame (s : State) :
    xrdBuild s =
      { s with
        crc := crcBytes 0x0000 (responseHeader s s.sq.kc)
        txbuf := (s.txbuf.setIfInBounds 0 s.cfg.addr).setIfInBounds 1 s.sq.kc
        txlen := 2 } := by
  unfold xrdBuild responseHeader
  cases s.build.rspCrcScope <;> rfl

theorem buildRequest_of_xwr {s : State} (h : s.sq.op = .xwr) : buildRequest s = xwrBuild s := by
  simp [buildRequest, h]

theorem buildRequest_of_xrd {s : State} (h : s.sq.op = .xrd) : buildRequest s = xrdBuild s := by
  simp [buildRequest, h]

theorem length_beBytes_fwid {s : State} {n i : Nat} (v : Word) (h : WidthsLegal s n) (hi : i < n) :
    (beBytes v (fwidAt s i).toNat).length = (fwidAt s i).toNat := by
  rcases h i hi with e | e | e <;> rw [e] <;> rfl

/-- The field bytes of a request are as many as the widths say (43_transport.md R121). -/
theorem length_payload {s : State} {n : Nat} (h : WidthsLegal s n) :
    (payload s n).length = widthSum s n := by
  simp only [payload, widthSum, widthSumFrom, List.length_flatMap, Nat.sub_zero,
    List.range_eq_range']
  congr 1
  apply List.map_congr_left
  intro i hi
  exact length_beBytes_fwid _ h (by simpa using hi)

/-- With legal widths the fields of `n` entries take at most 4 n bytes. -/
theorem widthSum_le {s : State} {n : Nat} (h : WidthsLegal s n) : widthSum s n ≤ 4 * n := by
  simp only [widthSum, widthSumFrom, Nat.sub_zero, ← List.range_eq_range']
  induction n with
  | zero => simp
  | succ n ih =>
    have h1 := ih (fun i hi => h i (by omega))
    have h2 : (fwidAt s n).toNat ≤ 4 := by
      rcases h n (by omega) with e | e | e <;> rw [e] <;> decide
    simp [List.range_succ]
    omega

theorem startField_cases (i : BitVec 5) (s : State) :
    (i.toNat < s.sq.n.toNat ∧ startField i s =
        { s with sq := { s.sq with phase := .rxd, i := i, j := 0, rxb := [] } })
      ∨ (¬ i.toNat < s.sq.n.toNat ∧ startField i s =
        { s with sq := { s.sq with phase := .rxc0, i := i } }) := by
  by_cases h : i.toNat < s.sq.n.toNat
  · exact .inl ⟨h, by simp [startField, h]⟩
  · exact .inr ⟨h, by simp [startField, h]⟩

/-- `readOrZero` passes the byte on, passes 0x00 on with `tof` set, or ends the attempt. -/
theorem readOrZero_cases (got : Byte → State → State) (a : PortAnswer) (s : State) :
    (∃ b rest, a = .ok ∧ s.port.rxq = b :: rest ∧ readOrZero got a s =
        got b (recordAnswer (.readByte b) { s with port := { s.port with rxq := rest } }))
      ∨ (a = .ok ∧ s.port.rxq = [] ∧ readOrZero got a s =
        got 0x00
          { recordAnswer .readTimeout s with sq := { s.sq with tof := true } })
      ∨ (∃ info keep sent, a = .ioErr info keep sent ∧ readOrZero got a s =
        ioError info (recordAnswer (.readErr info) s)) := by
  rcases streamRead1_cases a s with ⟨b, rest, ha, hr, h⟩ | ⟨ha, hr, h⟩ | ⟨i, k, n, ha, h⟩
  · exact .inl ⟨b, rest, ha, hr, by simp [readOrZero, h]⟩
  · exact .inr (.inl ⟨ha, hr, by simp [readOrZero, h]⟩)
  · exact .inr (.inr ⟨i, k, n, ha, by simp [readOrZero, h]⟩)

/-- `fieldByte` goes on in the field, or stages the field and goes to the next. -/
theorem fieldByte_cases (x : Byte) (s : State) :
    (s.sq.j.toNat + 1 < (fwidAt s s.sq.i.toNat).toNat ∧ fieldByte x s =
        { s with
          crc := crcStep s.crc x
          sq := { s.sq with rxb := s.sq.rxb ++ [x], j := s.sq.j + 1 } })
      ∨ (¬ s.sq.j.toNat + 1 < (fwidAt s s.sq.i.toNat).toNat ∧ fieldByte x s =
        startField (s.sq.i + 1)
          { s with
            crc := crcStep s.crc x
            sq := { s.sq with
              rxb := s.sq.rxb ++ [x]
              j := s.sq.j + 1
              stg := s.sq.stg.setIfInBounds s.sq.i.toNat (beJoin (s.sq.rxb ++ [x])) } }) := by
  by_cases h : s.sq.j.toNat + 1 < (fwidAt s s.sq.i.toNat).toNat
  · exact .inl ⟨h, by simp [fieldByte, h]⟩
  · exact .inr ⟨h, by simp [fieldByte, h]⟩

/-- `verdict` ends the command with its results, or fails the attempt. -/
theorem verdict_cases (s : State) :
    (verified s = true ∧ verdict s =
        finishOk
          { s with
            res := copyBelow s.sq.n.toNat s.sq.stg s.res
            status := { s.status with rvalid := true } })
      ∨ (verified s = false ∧ verdict s = failAttempt .bad (s.sq.rxcrc ++ s.crc) s) := by
  cases h : verified s
  · exact .inr ⟨rfl, by simp [verdict, h]⟩
  · exact .inl ⟨rfl, by simp [verdict, h]⟩

/-! ### The host port and the step -/

theorem notAdmitted_eq_none_iff (size : AccessSize) (off : Nat) :
    notAdmitted size off = none ↔ size = .word ∧ off % 4 = 0 ∧ off < 0x1000 := by
  unfold notAdmitted Config.blockBytes
  by_cases h1 : 4096 ≤ off
  · simp [h1, Nat.not_lt.mpr h1]
  · by_cases h2 : size = .word
    · by_cases h3 : off % 4 = 0
      · simp [h2, h3, Nat.not_le.mp h1]
      · simp [h1, h2, h3]
    · simp [h1, h2]

theorem regAt_eq_status_iff (off : Nat) : regAt off = .status ↔ off = 0x004 := by
  simp only [regAt, ite_eq_iff, reduceCtorEq, and_false, and_true, false_or, or_false]
  omega

theorem regAt_eq_cmd_iff (off : Nat) : regAt off = .cmd ↔ off = 0x000 := by
  simp only [regAt, ite_eq_iff, reduceCtorEq, and_false, and_true, or_false]

/-- A step takes the next move of the outside world, or waits when there is none. -/
theorem step_cases (s : State) :
    (s.inputs = [] ∧ step s = .next s)
      ∨ (∃ e rest, s.inputs = e :: rest ∧ step s = handle e { s with inputs := rest }) := by
  cases h : s.inputs with
  | nil => exact .inl ⟨rfl, by simp [step, takeInput, h]⟩
  | cons e rest => exact .inr ⟨e, rest, rfl, by simp [step, takeInput, h]⟩

theorem runSteps_zero (s : State) : runSteps 0 s = .next s := rfl

theorem runSteps_succ (m : Nat) (s : State) :
    runSteps (m + 1) s =
      match step s with
      | .next t => runSteps m t
      | .fault f => .fault f
      | .refused r => .refused r := by
  have h : Sys2Proof.core.step s = step s := rfl
  simp only [runSteps, Host.Core.run, h]
  cases step s <;> rfl

theorem runSteps_add {m : Nat} {s t : State} (k : Nat) (h : runSteps m s = .next t) :
    runSteps (m + k) s = runSteps k t := by
  induction m generalizing s with
  | zero =>
    have : s = t := by simpa [runSteps_zero] using h
    simp [this]
  | succ m ih =>
    rw [Nat.add_right_comm, runSteps_succ]
    rw [runSteps_succ] at h
    cases hs : step s with
    | next u => rw [hs] at h; exact ih h
    | fault f => rw [hs] at h; cases h
    | refused r => rw [hs] at h; cases h

/-! ### The host's listing -/

/-- An access of the host takes effect on the block as it is. -/
theorem accessStep_eq_handle (e : Input) (s : State) : accessStep e s = handle e s := rfl

theorem afterWait_cases (value : Word) (rest : List HostOp) :
    (value.getLsbD 0 = true ∧ afterWait value rest = .wait :: rest)
      ∨ (value.getLsbD 0 = false ∧ afterWait value rest = rest) := by
  unfold afterWait
  cases value.getLsbD 0
  · exact .inr ⟨rfl, rfl⟩
  · exact .inl ⟨rfl, rfl⟩

theorem resume_eq_next {rest : List HostOp} {o : Host.Outcome State Fault Refusal} {h : Hosted} :
    resume rest o = .next h ↔ ∃ t, o = .next t ∧ h = { listing := rest, block := t } := by
  cases o with
  | next t => simp [resume, eq_comm]
  | fault f => simp [resume]
  | refused r => simp [resume]

/-- What a turn that goes on can be: nothing left to do, an access, a read of STATUS by a `wait`, or a
step of the block. -/
theorem takeTurn_cases {who : Turn} {h k : Hosted} (hk : takeTurn who h = .next k) :
    (who = .host ∧ h.listing = [] ∧ k = h)
      ∨ (∃ r v rest t, who = .host ∧ h.listing = .st r v :: rest
        ∧ handle (stInput r v) h.block = .next t ∧ k = { listing := rest, block := t })
      ∨ (∃ r rest t, who = .host ∧ h.listing = .ld r :: rest
        ∧ handle (ldInput r) h.block = .next t ∧ k = { listing := rest, block := t })
      ∨ (∃ rest t, who = .host ∧ h.listing = .wait :: rest
        ∧ handle (ldInput .status) h.block = .next t
        ∧ k = { listing := afterWait (regRead h.block (regOffset .status)) rest, block := t })
      ∨ (∃ t, who = .block ∧ step h.block = .next t ∧ k = { listing := h.listing, block := t }) := by
  cases who with
  | block =>
    obtain ⟨t, ht, rfl⟩ := resume_eq_next.1 hk
    exact .inr (.inr (.inr (.inr ⟨t, rfl, ht, rfl⟩)))
  | host =>
    obtain ⟨listing, s⟩ := h
    rcases listing with _ | ⟨op, rest⟩
    · exact .inl ⟨rfl, rfl, by simpa [takeTurn, hostTurn] using hk.symm⟩
    · simp only [takeTurn, hostTurn] at hk
      cases op with
      | st r v =>
        obtain ⟨t, ht, rfl⟩ := resume_eq_next.1 hk
        exact .inr (.inl ⟨r, v, rest, t, rfl, rfl, ht, rfl⟩)
      | ld r =>
        obtain ⟨t, ht, rfl⟩ := resume_eq_next.1 hk
        exact .inr (.inr (.inl ⟨r, rest, t, rfl, rfl, ht, rfl⟩))
      | wait =>
        obtain ⟨t, ht, rfl⟩ := resume_eq_next.1 hk
        exact .inr (.inr (.inr (.inl ⟨rest, t, rfl, rfl, ht, rfl⟩)))

theorem runHosted_cons (who : Turn) (later : List Turn) (h : Hosted) :
    runHosted (who :: later) h =
      match takeTurn who h with
      | .next t => runHosted later t
      | .fault f => .fault f
      | .refused r => .refused r := rfl

theorem runHosted_append {before : List Turn} {h t : Hosted} (later : List Turn)
    (ht : runHosted before h = .next t) : runHosted (before ++ later) h = runHosted later t := by
  induction before generalizing h with
  | nil =>
    have : h = t := by simpa [runHosted] using ht
    simp [this]
  | cons who before ih =>
    rw [List.cons_append, runHosted_cons]
    rw [runHosted_cons] at ht
    cases hu : takeTurn who h with
    | next u => rw [hu] at ht; exact ih ht
    | fault f => rw [hu] at ht; cases ht
    | refused r => rw [hu] at ht; cases ht

end Sys2Proof.Machine
end

