-- ==== Sys2Proof/Laws/PerInstr.lean ====
section
/-! SUPPORT. Facts about every command as syntax, one lemma per constructor: the word of a command lies in
its row of opcode_table.json. -/

namespace Sys2Proof.Laws.TableRow

/-- The word of the command has the bits its row of opcode_table.json fixes (30_encoding.md R61). -/
def Statement (i : Instr) : Prop := encode i &&& i.tableMask = i.tableMatch

theorem crcClr : Statement .crcClr := by unfold Statement; decide

theorem crcFeed (b : Byte) : Statement (.crcFeed b) := by
  revert b; unfold Statement; decide

theorem crcFeedb (c : Byte) : Statement (.crcFeedb c) := by
  revert c; unfold Statement; decide

theorem enc8 : Statement .enc8 := by unfold Statement; decide

theorem enc16 : Statement .enc16 := by unfold Statement; decide

theorem enc32 : Statement .enc32 := by unfold Statement; decide

theorem dec8 : Statement .dec8 := by unfold Statement; decide

theorem dec16 : Statement .dec16 := by unfold Statement; decide

theorem dec32 : Statement .dec32 := by unfold Statement; decide

/-- The fixed bits of a framed command word do not meet its KC and N fields. -/
theorem framed_fixed_bits (opc kc : Byte) (n : BitVec 5) :
    cmdWord opc kc n 0 &&& 0xFF00E0FF = cmdWord opc 0 0 0 := by
  apply BitVec.eq_of_getLsbD_eq
  intro i hi
  simp only [cmdWord, BitVec.getLsbD_and, BitVec.getLsbD_append]
  interval_cases i <;> simp

theorem xwr (kc : Byte) (n : BitVec 5) : Statement (.xwr kc n) :=
  framed_fixed_bits 0x20 kc n

theorem xrd (kc : Byte) (n : BitVec 5) : Statement (.xrd kc n) :=
  framed_fixed_bits 0x21 kc n

end Sys2Proof.Laws.TableRow
end

