-- ==== Sys2Proof/Tests/Slice0.lean ====
section
/-! SUPPORT. Tests: ill-formed terms that the checks refuse, words written from the encoding tables,
one-step vectors of 95_test_vectors.md (the vector is named in each docstring), and for each statement
with hypotheses a concrete state and operands that meet them together. -/

open Sys2Proof Sys2Proof.Machine

namespace Sys2Proof.Tests

/-! ### Well-formedness -/

theorem test_wf_refuses_five_lanes : (Instr.crcFeedb 5).wf = false := by decide
theorem test_wf_refuses_seventeen_fields_written : (Instr.xwr 0x22 17).wf = false := by decide
theorem test_wf_refuses_seventeen_fields_read : (Instr.xrd 0x22 31).wf = false := by decide
theorem test_wf_admits_bounds :
    (Instr.crcFeedb 4).wf = true ∧ (Instr.xwr 0xFF 16).wf = true ∧ (Instr.xrd 0 0).wf = true := by decide

/-! ### Decoding: one word for each command, OPC | KC | RSV N | IMM written out (30_encoding.md R60, R61) -/

theorem test_decode_crc_clr : decode 0b00000001_00000000_000_00000_00000000 = .ok .crcClr := by decide
theorem test_decode_crc_feed :
    decode 0b00000010_00000000_000_00000_10100101 = .ok (.crcFeed 0xA5) := by decide
theorem test_decode_crc_feedb :
    decode 0b00000011_00000000_000_00000_00000100 = .ok (.crcFeedb 4) := by decide
theorem test_decode_enc8 : decode 0b00010000_00000000_000_00000_00000000 = .ok .enc8 := by decide
theorem test_decode_enc16 : decode 0b00010001_00000000_000_00000_00000000 = .ok .enc16 := by decide
theorem test_decode_enc32 : decode 0b00010010_00000000_000_00000_00000000 = .ok .enc32 := by decide
theorem test_decode_dec8 : decode 0b00011000_00000000_000_00000_00000000 = .ok .dec8 := by decide
theorem test_decode_dec16 : decode 0b00011001_00000000_000_00000_00000000 = .ok .dec16 := by decide
theorem test_decode_dec32 : decode 0b00011010_00000000_000_00000_00000000 = .ok .dec32 := by decide
theorem test_decode_xwr :
    decode 0b00100000_10010011_000_10000_00000000 = .ok (.xwr 0x93 16) := by decide
theorem test_decode_xrd :
    decode 0b00100001_00010010_000_00001_00000000 = .ok (.xrd 0x12 1) := by decide

/-- The words of 95_test_vectors.md section 4.3, each with the reason it names. -/
theorem test_decode_illegal :
    decode 0x00000000 = .error .reservedOpcode ∧ decode 0x01000001 = .error .unusedField
      ∧ decode 0x01010000 = .error .unusedField ∧ decode 0x02010055 = .error .unusedField
      ∧ decode 0x03000005 = .error .tooManyLanes ∧ decode 0x10000100 = .error .unusedField
      ∧ decode 0x13000000 = .error .reservedOpcode ∧ decode 0x20001100 = .error .tooManyFields
      ∧ decode 0x20002000 = .error .reservedBits ∧ decode 0x200000FF = .error .unusedField := by decide

theorem test_table_word : decodeTableWord 32 0x21120100 = some (.xrd 0x12 1) := by decide

/-! ### States -/

/-- Reset, but with ADDR 0x80, a budget of 3, fields (0x12C, 2) and (0x40, 1), a two-byte input buffer. -/
def idleState : State :=
  { State.reset with
    cfg := { addr := 0x80, tries := 3, ioRetry := false }
    fval := (State.reset.fval.set 0 0x12C).set 1 0x40
    fwid := (State.reset.fwid.set 0 2).set 1 1
    build := { rspCrcScope := .hdrPayload, timeoutPolicy := .failAttempt, rxDepthLessOne := 1 } }

/-- A transport command of two fields in its first attempt. -/
def running (phase : Phase) (op : Op) (rxq : List Byte) : State :=
  { idleState with
    status := { State.reset.status with busy := true, attempts := 1 }
    sq := { State.reset.sq with phase := phase, op := op, kc := 0x12, n := 2, k := 1 }
    port := { rxq := rxq, portcfg := .ready } }

/-- The state with the next moves of the outside world. -/
def withMoves (es : List Input) (s : State) : State := { s with inputs := es }

/-- What a test asks of the next state. -/
def nextIs (o : Host.Outcome State Fault Refusal) (p : State → Bool) : Bool :=
  match o with
  | .next t => p t
  | .fault _ => false
  | .refused _ => false

/-- The step answers a next state with STATUS and one more register as named. -/
def readsAfter (o : Host.Outcome State Fault Refusal) (status : Word) (off : Nat) (v : Word) : Bool :=
  nextIs o (fun t => regRead t 0x004 == status && regRead t off == v)

/-! ### One step for each command -/

/-- T-K1. -/
theorem test_crc_clr :
    readsAfter (exec .crcClr { State.reset with crc := 0x31C3 }) 0x00000002 0x00C 0x0000 = true := by decide
/-- T-K4. -/
theorem test_crc_feed : readsAfter (exec (.crcFeed 0x80) State.reset) 0x00000002 0x00C 0x9188 = true := by decide
/-- T-K6. -/
theorem test_crc_feed_digit :
    readsAfter (exec (.crcFeed 0x31) State.reset) 0x00000002 0x00C 0x2672 = true := by decide
/-- T-K11. -/
theorem test_crc_feedb_four :
    readsAfter (exec (.crcFeedb 4) { State.reset with bytes := 0x78563412 }) 0x00000002 0x00C 0xB42C
      = true := by decide +kernel
/-- T-K13. -/
theorem test_crc_feedb_none :
    readsAfter (exec (.crcFeedb 0) { State.reset with crc := 0x1234 }) 0x00000002 0x00C 0x1234 = true := by decide
/-- T-C5. -/
theorem test_enc8 :
    readsAfter (exec .enc8 { State.reset with data := 0xFFFFFED4 }) 0x00000002 0x014 0x000000D4 = true := by decide
/-- T-C2. -/
theorem test_enc16 :
    readsAfter (exec .enc16 { State.reset with data := 0x0000012C }) 0x00000002 0x014 0x00002C01 = true := by decide
/-- T-C4. -/
theorem test_enc32 :
    readsAfter (exec .enc32 { State.reset with data := 0xFFFFFED4 }) 0x00000002 0x014 0xD4FEFFFF = true := by decide
/-- T-C8. -/
theorem test_dec8 :
    readsAfter (exec .dec8 { State.reset with bytes := 0x12345680 }) 0x00000002 0x010 0x00000080 = true := by decide
/-- T-C6. -/
theorem test_dec16 :
    readsAfter (exec .dec16 { State.reset with bytes := 0x0000D4FE }) 0x00000002 0x010 0x0000FED4 = true := by decide
/-- T-C7. -/
theorem test_dec32 :
    readsAfter (exec .dec32 { State.reset with bytes := 0xD4FEFFFF }) 0x00000002 0x010 0xFFFFFED4 = true := by decide
/-- T-W13: index 2 has width 0. -/
theorem test_xwr_width :
    readsAfter (exec (.xwr 0x00 3) idleState) 0x00000032 0x018 0x00000200 = true := by decide
/-- T-W10: the port's setup error. -/
theorem test_xwr_setup :
    readsAfter
      (exec (.xwr 0x00 1) { idleState with port := { rxq := [], portcfg := .cfgErr 0xABCD } })
      0x00000022 0x018 0x0000ABCD = true := by decide
/-- T-R12: a budget of zero. -/
theorem test_xrd_no_budget :
    readsAfter
      (exec (.xrd 0x12 1) { idleState with cfg := { addr := 0x80, tries := 0, ioRetry := false } })
      0x00000042 0x018 0 = true := by decide
/-- T-R1 at its acceptance: BUSY and ATTEMPTS are 1 (10_state.md R13). -/
theorem test_xrd_accepted :
    readsAfter (exec (.xrd 0x12 1) idleState) 0x00000101 0x00C 0 = true := by decide
/-- Section 4.3: an illegal word. -/
theorem test_illegal_word :
    readsAfter (hostWrite .word 0x000 0x03000005 idleState) 0x00000052 0x018 0x03000005 = true := by decide

/-! ### The sequencer, one answer at a time -/

/-- T-W1, the flush answered: the packet `80 00 40 73 9E`. -/
theorem test_write_request :
    nextIs
      (onAnswer .ok
        { running .flush .xwr [] with
          fval := idleState.fval.set 0 0x40
          fwid := idleState.fwid.set 0 1
          sq := { State.reset.sq with phase := .flush, n := 1, k := 1 } })
      (fun t => request t == [0x80, 0x00, 0x40, 0x73, 0x9E] && t.txlen == 5 && t.crc == 0x739E) = true := by decide +kernel
/-- T-W3, the third ack: a timeout ends the command. -/
theorem test_ack_timeout_exhausts :
    readsAfter
      (onAnswer .ok
        { running .ack .xwr [] with
          status := { State.reset.status with busy := true, attempts := 3 }
          sq := { State.reset.sq with phase := .ack, n := 1, k := 3 } })
      0x00000342 0x018 0x00000200 = true := by decide
/-- T-R1, the last checksum byte: RES[0] is 300. -/
theorem test_read_verified :
    readsAfter
      (onAnswer .ok
        { running .rxc1 .xrd [0xE4] with
          crc := 0x26E4
          sq :=
            { State.reset.sq with
              phase := .rxc1, op := .xrd, n := 1, k := 1, rxcrc := 0x2600
              stg := State.reset.sq.stg.set 0 0x12C } })
      0x00000106 0x0C0 0x0000012C = true := by decide
/-- T-R5, the last checksum byte timed out: the comparison holds and the attempt still fails. -/
theorem test_read_silent_fails :
    readsAfter
      (onAnswer .ok
        { running .rxc1 .xrd [] with
          cfg := { addr := 0x00, tries := 1, ioRetry := false }
          sq := { State.reset.sq with phase := .rxc1, op := .xrd, n := 1, k := 1, tof := true } })
      0x00000142 0x018 0 = true := by decide

/-! ### The register port -/

/-- The bounds of each row of the map (20_memory.md R41). -/
theorem test_register_map :
    regAt 0x01C = .txlen ∧ regAt 0x020 = .reserved ∧ regAt 0x03C = .reserved ∧ regAt 0x040 = .fval 0
      ∧ regAt 0x07C = .fval 15 ∧ regAt 0x080 = .fwid 0 ∧ regAt 0x0BC = .fwid 15 ∧ regAt 0x0C0 = .res 0
      ∧ regAt 0x0FC = .res 15 ∧ regAt 0x100 = .txbufWord 0 ∧ regAt 0x140 = .txbufWord 16
      ∧ regAt 0x144 = .reserved ∧ regAt 0xFFC = .reserved := by decide +kernel
/-- T-B7. -/
theorem test_cfg_reserved_bits :
    readsAfter (hostWrite .word 0x008 0xFFFFFFFF State.reset) 0 0x008 0x0001FFFF = true := by decide

/-! ### The host's listing -/

/-- P3: `write 0x00, 1` is the word 0x20000100 and a `wait`. -/
theorem test_expand_write : asmExpand (.write 0x00 1) = [.st .cmd 0x20000100, .wait] := by decide
/-- A `wait` stays while the ack is outstanding and ends after it came. -/
theorem test_wait_ends_after_the_ack :
    (match runHosted [.host, .block, .host]
        { listing := [.wait, .ld .crc]
          block := withMoves [.portAnswer .ok] (running .ack .xwr [0xFF]) } with
      | .next h => h.listing == [.ld .crc] && h.block.readLog == [0x00000101, 0x00000102]
      | .fault _ => false
      | .refused _ => false) = true := by decide +kernel

/-! ### Witnesses: encoding and steps -/

theorem witness_DecodeEncodeRoundTrip : (Instr.xrd 0x12 16).wf = true ∧ (Instr.crcFeedb 4).wf = true := by decide
theorem witness_EveryWordIsOneCommandOrIllegal :
    ¬ IllegalCommandWord 0x20FF1000 ∧ IllegalCommandWord 0x20FF1100 := by
  unfold IllegalCommandWord; decide
theorem witness_IllegalWordCompletesAtOnce :
    idleState.status.busy = false ∧ idleState.sq.phase = .idle ∧ IllegalCommandWord 0x03000005 := by
  unfold IllegalCommandWord; decide
theorem witness_StepRunsDecodedCommand :
    (withMoves [.hostWrite .word 0x000 0x20000200] idleState).inputs
        = .hostWrite .word 0x000 0x20000200 :: []
      ∧ idleState.status.busy = false ∧ decode 0x20000200 = .ok (.xwr 0 2) := by decide
theorem witness_FetchWordRunsNext :
    State.reset.status.busy = false ∧ decodeTableWord 32 0x03000004 = some (.crcFeedb 4) := by decide
theorem witness_OnlyUnadmittedMovesStop :
    nextIs (step (withMoves [.deviceByte 1] idleState)) (fun _ => true) = true
      ∧ step (withMoves [.hostRead .word 0x1000] idleState) = .fault (.outsideBlock 0x1000)
      ∧ step (withMoves [.hostWrite .half 0xFFC 0] idleState) = .fault (.subWordAccess 0xFFC)
      ∧ step (withMoves [.hostRead .word 0x00A] idleState) = .fault (.misalignedAccess 0x00A)
      ∧ step (withMoves [.portAnswer .ok] idleState) = .refused .noStreamOperation :=
  ⟨by decide, rfl, rfl, rfl, rfl⟩

/-! ### Witnesses: checksum, codec, registers -/

/-- Each with an illegal word of its opcode. -/
theorem witness_CrcClrResetsChecksum :
    idleState.status.busy = false ∧ (0x01000001 : Word).extractLsb' 24 8 = 0x01
      ∧ IllegalCommandWord 0x01000001 := by
  unfold IllegalCommandWord; decide
theorem witness_CrcFeedFoldsOneByte :
    idleState.status.busy = false ∧ (0x02010055 : Word).extractLsb' 24 8 = 0x02
      ∧ IllegalCommandWord 0x02010055 := by
  unfold IllegalCommandWord; decide
theorem witness_EncodeCommandsSplitData :
    idleState.status.busy = false ∧ (0x10000100 : Word).extractLsb' 24 8 = 0x10
      ∧ IllegalCommandWord 0x10000100 := by
  unfold IllegalCommandWord; decide
theorem witness_DecodeCommandsJoinBytes :
    idleState.status.busy = false ∧ (0x1A002000 : Word).extractLsb' 24 8 = 0x1A
      ∧ IllegalCommandWord 0x1A002000 := by
  unfold IllegalCommandWord; decide
theorem witness_CrcFeedbFoldsLanes :
    idleState.status.busy = false ∧ (0 : Byte).toNat ≤ 4 ∧ (4 : Byte).toNat ≤ 4 := by decide
theorem witness_ChecksumFoldLaws : crcBytes 0x0000 ([0, 0] ++ List.replicate 2 0x00) = 0x0000 := by
  decide +kernel
theorem witness_CrcUpdateFoldsByteList : idleState.status.busy = false := by decide
theorem witness_CodecRoundTrip :
    idleState.status.busy = false
      ∧ ((0xFFFFFED4 : Word).setWidth (8 * 2)).signExtend 32 = (0xFFFFFED4 : Word) := by decide
theorem witness_ChecksumAndCodecFrame :
    idleState.status.busy = false ∧ (Instr.crcFeedb 3).wf = true ∧ Instr.enc16.wf = true
      ∧ Instr.dec32.wf = true := by decide
/-- One offset of each clause, at a bound of its range. -/
theorem witness_RegisterWritesTakeEffect :
    (∀ off ∈ [0x000, 0x004, 0x008, 0x00C, 0x018, 0x01C, 0x020, 0x03C, 0x040, 0x07C, 0x080, 0x0BC, 0x0C0,
        0x140, 0x144, 0xFFC], off % 4 = 0 ∧ off < 0x1000)
      ∧ (running .ack .xwr []).status.busy = true ∧ idleState.status.busy = false
      ∧ (8 : Word).getLsbD 3 = true ∧ (7 : Word).getLsbD 3 = false := by decide +kernel
/-- A read of each bound, the last byte of the output buffer among them. -/
theorem witness_RegisterReadsReturnFields :
    0xFFC % 4 = 0 ∧ 0xFFC < 0x1000
      ∧ (regRead { idleState with txbuf := idleState.txbuf.set 67 0xAB } 0x140).extractLsb' 24 8 = 0xAB := by decide
theorem witness_UnadmittedAccessHasNoStep :
    (AccessSize.byte ≠ .word) ∧ 0x002 % 4 ≠ 0 ∧ 0x1000 ≤ 0x1000 := by decide
theorem witness_BusyDropsHostWrites :
    (running .ack .xwr []).status.busy = true ∧ 0x000 % 4 = 0 ∧ 0x000 < 0x1000 ∧ 0x000 ≠ 0x004
      ∧ (withMoves [.hostWrite .word 0x000 1] (running .ack .xwr [])).inputs = [.hostWrite .word 0x000 1]
      ∧ (withMoves [.hostRead .word 0x0C0] (running .ack .xwr [])).inputs = [.hostRead .word 0x0C0] := by decide
theorem witness_ReservedBitsReadZeroIgnoreWrites :
    (0xFFFFFFF7 : Word).getLsbD 3 = (0 : Word).getLsbD 3
      ∧ (0xFFFE0001 : Word).setWidth 17 = (1 : Word).setWidth 17
      ∧ (0xFFFFFF02 : Word).setWidth 8 = (2 : Word).setWidth 8 ∧ idleState.status.busy = false := by decide
theorem witness_OverrunFlagIsSticky :
    nextIs
      (step (withMoves [.hostWrite .word 0x004 8]
        { idleState with status := { State.reset.status with ovr := true } }))
      (fun t => !t.status.ovr) = true := by decide

/-! ### Witnesses: the stream port -/

/-- One byte fits above one, none above two. -/
theorem witness_DeviceByteAppendedOrLost :
    nextIs (step (withMoves [.deviceByte 7] (running .ack .xwr [5]))) (fun t => t.port.rxq == [5, 7]) = true
      ∧ nextIs (step (withMoves [.deviceByte 7] (running .ack .xwr [5, 6])))
        (fun t => t.port.rxq == [5, 6]) = true := by decide
theorem witness_FlushEmptiesOrLeavesSublist :
    ([6] : List Byte).Sublist (running .flush .xwr [5, 6]).port.rxq := by decide
theorem witness_WriteSendsAllOrFirstPart : ([] : List Byte) <+: [1, 2] ∧ [1, 2] <+: ([1, 2] : List Byte) := by decide
theorem witness_ReadTakesHeadOrTimesOut :
    (running .ack .xwr [5, 6]).port.rxq = 5 :: [6] ∧ (running .ack .xwr []).port.rxq = [] := by decide
theorem witness_TransmitRecordOnlyGrows :
    nextIs (step (withMoves [.portAnswer .ok] (running .tx .xwr [])))
      (fun t => t.txlog.packets == [[]] && t.txlog.answers == [.writeOk []]) = true := by decide

/-! ### Witnesses: acceptance -/

theorem witness_WidthCheckRejectsFirstBadWidth :
    idleState.status.busy = false ∧ (3 : BitVec 5).toNat ≤ 16 ∧ 2 < (3 : BitVec 5).toNat
      ∧ WidthsLegal idleState 2
      ∧ ¬ (fwidAt idleState 2 = 1 ∨ fwidAt idleState 2 = 2 ∨ fwidAt idleState 2 = 4) := by
  unfold WidthsLegal; decide
theorem witness_SetupCheckReportsPortError :
    WidthsLegal { idleState with port := { rxq := [], portcfg := .cfgErr 9 } } (2 : BitVec 5).toNat
      ∧ ({ idleState with port := { rxq := [], portcfg := .cfgErr 9 } } : State).port.portcfg = .cfgErr 9
      ∧ ({ idleState with port := { rxq := [], portcfg := .cfgErr 9 } } : State).status.busy = false := by
  unfold WidthsLegal; decide
theorem witness_ZeroBudgetEndsExhausted :
    WidthsLegal { idleState with cfg := { addr := 0, tries := 0, ioRetry := true } } 0
      ∧ ({ idleState with cfg := { addr := 0, tries := 0, ioRetry := true } } : State).cfg.tries = 0
      ∧ ({ idleState with cfg := { addr := 0, tries := 0, ioRetry := true } } : State).port.portcfg = .ready
      ∧ ({ idleState with cfg := { addr := 0, tries := 0, ioRetry := true } } : State).status.busy
        = false := by
  unfold WidthsLegal; decide
theorem witness_TransportCommandStartsFirstAttempt :
    idleState.status.busy = false ∧ (2 : BitVec 5).toNat ≤ 16 ∧ WidthsLegal idleState (2 : BitVec 5).toNat
      ∧ idleState.port.portcfg = .ready ∧ idleState.cfg.tries ≠ 0 := by
  unfold WidthsLegal; decide
/-- Sixteen fields of four bytes: the longest command. -/
theorem witness_sixteen_fields :
    (16 : BitVec 5).toNat ≤ 16
      ∧ WidthsLegal { idleState with fwid := Vector.replicate 16 4 } (16 : BitVec 5).toNat := by
  unfold WidthsLegal; decide +kernel
theorem witness_BusyTurnsEveryCommandAway : (running .rxd .xrd []).status.busy = true := by decide

/-! ### Witnesses: the attempts -/

theorem witness_NextAttemptOrExhaustion :
    (running .ack .xwr []).sq.k ≠ (running .ack .xwr []).cfg.tries
      ∧ ({ running .ack .xwr [] with cfg := { addr := 0, tries := 1, ioRetry := false } } : State).sq.k
        = ({ running .ack .xwr [] with cfg := { addr := 0, tries := 1, ioRetry := false } } : State).cfg.tries
      := by decide
theorem witness_StreamErrorFollowsRetryPolicy :
    (running .flush .xwr [1]).sq.phase ≠ .idle ∧ (running .rxc1 .xrd [1]).sq.phase ≠ .idle
      ∧ (running .tx .xwr []).cfg.ioRetry = false
      ∧ ({ running .tx .xwr [] with cfg := { addr := 0, tries := 3, ioRetry := true } } : State).cfg.ioRetry
        = true := by decide
theorem witness_WriteRequestIsBuilt :
    (running .flush .xwr [1]).sq.phase = .flush ∧ (running .flush .xwr [1]).sq.op = .xwr
      ∧ (running .flush .xwr [1]).txlen = 0 ∧ (running .flush .xwr [1]).crc = 0x0000
      ∧ (running .flush .xwr [1]).sq.n.toNat ≤ 16
      ∧ WidthsLegal (running .flush .xwr [1]) (running .flush .xwr [1]).sq.n.toNat := by
  unfold WidthsLegal; decide
theorem witness_ReadRequestIsBuilt :
    (running .flush .xrd [1]).sq.phase = .flush ∧ (running .flush .xrd [1]).sq.op = .xrd := by decide
theorem witness_RequestGoesOutInOneWrite :
    (running .tx .xwr []).sq.phase = .tx ∧ (running .tx .xwr []).sq.op = .xwr
      ∧ (running .tx .xrd []).sq.op = .xrd ∧ (running .tx .xrd []).sq.n ≠ 0
      ∧ ({ running .tx .xrd [] with sq := { State.reset.sq with phase := .tx, op := .xrd } } : State).sq.n
        = 0 := by decide
theorem witness_AckByteDecidesWriteAttempt :
    (running .ack .xwr [0xFF, 1]).sq.phase = .ack ∧ (running .ack .xwr [0xFF, 1]).port.rxq = 0xFF :: [1]
      ∧ (running .ack .xwr [0xFE]).port.rxq = 0xFE :: [] ∧ (0xFE : Byte) ≠ 0xFF
      ∧ (running .ack .xwr []).port.rxq = [] := by decide

/-- A running command with legal fields keeps `Running`; `i`, `j` and the bytes are those of a field in
progress. -/
theorem running_Running (phase : Phase) (op : Op) (rxq : List Byte)
    (ha : phase = .ack → op = .xwr) (hr : phase = .rxd ∨ phase = .rxc0 ∨ phase = .rxc1 → op = .xrd) :
    Running (running phase op rxq) where
  fields := by show (2 : BitVec 5).toNat ≤ 16; decide
  widths := by
    show ∀ i, i < 2 → _
    intro i hi
    rcases i with _ | _ | i
    · exact .inr (.inl rfl)
    · exact .inl rfl
    · omega
  ready := rfl
  attempts := rfl
  started := by show 1 ≤ (1 : Byte).toNat; decide
  budget := by show (1 : Byte).toNat ≤ (3 : Byte).toNat; decide
  notDone := rfl
  noCode := rfl
  noInfo := rfl
  invalid := fun _ => rfl
  fresh := fun _ => ⟨rfl, rfl⟩
  ackOp := ha
  rxOp := hr
  field := fun _ => ⟨by show (0 : BitVec 5).toNat < (2 : BitVec 5).toNat; decide, by
    show (0 : BitVec 3).toNat < (2 : Byte).toNat; decide, rfl⟩

theorem running_Inv (phase : Phase) (op : Op) (rxq : List Byte) (hp : phase ≠ .idle)
    (ha : phase = .ack → op = .xwr) (hr : phase = .rxd ∨ phase = .rxc0 ∨ phase = .rxc1 → op = .xrd)
    (hq : rxq.length ≤ 2) : State.Inv (running phase op rxq) where
  busyPhase := ⟨fun _ => hp, fun _ => rfl⟩
  rxqBound := hq
  txlenBound := by show (0 : BitVec 7).toNat ≤ 68; decide
  running := fun _ => running_Running phase op rxq ha hr

/-- The first byte of a field of two, and, of a field of one, its last byte: of the last field too. -/
theorem witness_FieldBytesAreFoldedAndStaged :
    (running .rxd .xrd [7]).sq.phase = .rxd ∧ Running (running .rxd .xrd [7])
      ∧ (running .rxd .xrd [7]).port.rxq = 7 :: (running .rxd .xrd [7]).port.rxq.tail
      ∧ (running .rxd .xrd []).port.rxq = [] ∧ Running (running .rxd .xrd [])
      ∧ (running .rxd .xrd [7]).sq.j.toNat + 1 < (fwidAt (running .rxd .xrd [7]) 0).toNat :=
  ⟨rfl, running_Running _ _ _ (by decide) (by decide), rfl, rfl,
    running_Running _ _ _ (by decide) (by decide), by decide⟩
theorem witness_FieldBytesAreFoldedAndStaged_last :
    let s : State :=
      { running .rxd .xrd [7] with
        sq := { State.reset.sq with phase := .rxd, op := .xrd, kc := 0x12, n := 2, k := 1, i := 1 } }
    s.sq.phase = .rxd ∧ Running s ∧ s.sq.j.toNat + 1 = (fwidAt s s.sq.i.toNat).toNat
      ∧ s.sq.i.toNat + 1 = s.sq.n.toNat :=
  ⟨rfl,
    { running_Running .rxd .xrd [7] (by decide) (by decide) with
      field := fun _ => ⟨by decide, by decide, rfl⟩ },
    by decide, by decide⟩
theorem witness_ResponseChecksumIsReadHighFirst :
    (running .rxc0 .xrd [7]).sq.phase = .rxc0
      ∧ (running .rxc0 .xrd [7]).port.rxq = 7 :: (running .rxc0 .xrd [7]).port.rxq.tail
      ∧ (running .rxc0 .xrd []).port.rxq = [] := by decide
/-- Both verdicts: the checksum 0x0000 met by a byte 0x00 verifies; met by a timeout it does not. -/
theorem witness_VerdictWritesResultsTogether :
    (running .rxc1 .xrd [0]).sq.phase = .rxc1 ∧ (running .rxc1 .xrd [0]).sq.n.toNat ≤ 16
      ∧ (running .rxc1 .xrd [0]).port.rxq = 0 :: (running .rxc1 .xrd [0]).port.rxq.tail
      ∧ (running .rxc1 .xrd [0]).crc = (running .rxc1 .xrd [0]).sq.rxcrc.extractLsb' 8 8 ++ (0 : Byte)
      ∧ (running .rxc1 .xrd [0]).sq.tof = false
      ∧ (running .rxc1 .xrd []).port.rxq = []
      ∧ (running .rxc1 .xrd []).build.timeoutPolicy = .failAttempt := by decide

/-! ### Witnesses: whole commands -/

theorem witness_WriteStopsAtFirstAck :
    let acks : List (Option Byte) := [some 0x00, none]
    let s := withMoves (cmdMove (.xwr 0x05 2) ::
      ((acks ++ [some 0xFF]).flatMap writeAttemptMoves ++ [.deviceByte 1])) idleState
    s.status.busy = false ∧ WidthsLegal s 2 ∧ s.port.portcfg = .ready
      ∧ acks.length < s.cfg.tries.toNat ∧ (∀ a ∈ acks, a ≠ some 0xFF)
      ∧ s.inputs = cmdMove (.xwr 0x05 2) ::
        ((acks ++ [some 0xFF]).flatMap writeAttemptMoves ++ [.deviceByte 1]) :=
  ⟨rfl, witness_TransportCommandStartsFirstAttempt.2.2.1, rfl, by decide, by simp, rfl⟩
theorem witness_WriteNeverAckedExhaustsBudget :
    let acks : List (Option Byte) := [some 0x00, none, some 0xFE]
    let s := withMoves (cmdMove (.xwr 0x05 2) :: (acks.flatMap writeAttemptMoves ++ [])) idleState
    s.status.busy = false ∧ WidthsLegal s 2 ∧ s.port.portcfg = .ready
      ∧ acks.length = s.cfg.tries.toNat ∧ (∀ a ∈ acks, a ≠ some 0xFF)
      ∧ s.inputs = cmdMove (.xwr 0x05 2) :: (acks.flatMap writeAttemptMoves ++ []) :=
  ⟨rfl, witness_TransportCommandStartsFirstAttempt.2.2.1, rfl, by decide, by simp, rfl⟩
theorem witness_ReadReturnsVerifiedResponse :
    let fields := responseFields idleState (fun _ => 0x12C) 2
    let c := crcBytes 0x0000 (responseHeader idleState 0x12 ++ fields)
    let s := withMoves (cmdMove (.xrd 0x12 2) :: .portAnswer .ok :: .portAnswer .ok ::
      (deliverMoves (fields ++ [c.extractLsb' 8 8, c.extractLsb' 0 8]) ++ [])) idleState
    s.status.busy = false ∧ WidthsLegal s 2 ∧ s.port.portcfg = .ready ∧ s.cfg.tries ≠ 0
      ∧ fields = responseFields s (fun _ => 0x12C) 2
      ∧ c = crcBytes 0x0000 (responseHeader s 0x12 ++ fields) :=
  ⟨rfl, witness_TransportCommandStartsFirstAttempt.2.2.1, rfl, by decide, rfl, rfl⟩
theorem witness_SilentDeviceNeverVerifies :
    let s := withMoves (cmdMove (.xrd 0x12 2) ::
      (List.replicate (3 * (4 + widthSum idleState 2)) (.portAnswer .ok) ++ [])) idleState
    s.status.busy = false ∧ WidthsLegal s 2 ∧ s.port.portcfg = .ready
      ∧ s.build.timeoutPolicy = .failAttempt ∧ widthSum s 2 = 3 :=
  ⟨rfl, witness_TransportCommandStartsFirstAttempt.2.2.1, rfl, rfl, rfl⟩

/-! ### Witnesses: reset and the whole machine -/

theorem witness_ResetGivesResetValues :
    let s := withMoves [.reset 1 [9, 8]] (running .tx .xwr [])
    s.inputs = .reset 1 [9, 8] :: [] ∧ [9, 8].length ≤ s.build.rxDepth := by decide
theorem witness_StepKeepsSequencerInvariant :
    let s := withMoves [.portAnswer .ok] (running .ack .xwr [0xFF])
    State.Inv (running .ack .xwr [0xFF]) ∧ s.status.busy = true ∧ s.sq.phase ≠ .idle
      ∧ nextIs (step s) (fun t => t.sq.phase == .idle && t.status.code == .ok) = true :=
  ⟨running_Inv _ _ _ (by decide) (by decide) (by decide) (by decide), rfl, by decide, by decide⟩
theorem witness_StepKeepsAttemptBytes :
    State.Inv (running .flush .xwr []) ∧ AttemptBytes (running .flush .xwr [])
      ∧ nextIs (step (withMoves [.portAnswer .ok] (running .flush .xwr [])))
        (fun t => t.sq.phase == .tx) = true :=
  ⟨running_Inv _ _ _ (by decide +kernel) (by decide +kernel) (by decide +kernel) (by decide +kernel),
    ⟨fun h => by simp [running] at h, fun h => by simp [running] at h, fun h => by simp [running] at h,
      fun h => by simp [running] at h⟩, by decide +kernel⟩
theorem witness_BuildParametersAreFixed :
    nextIs (step (withMoves [.hostWrite .word 0x008 7] idleState)) (fun t => t.cfg.addr == 7) = true := by
  decide
/-- A write of CFG while a command runs. -/
theorem witness_RunningCommandOperandsFrozen :
    let s := withMoves [.hostWrite .word 0x008 7] (running .rxd .xrd [])
    s.status.busy = true ∧ s.sq.phase ≠ .idle ∧ nextIs (step s) (fun t => t.status.ovr) = true := by
  decide
theorem witness_OnlyTransportCommandsLeaveIdle :
    idleState.sq.phase = .idle
      ∧ nextIs (step (withMoves [.hostWrite .word 0x000 0x21120200] idleState))
        (fun t => t.sq.phase == .flush) = true := by decide
theorem witness_ResultsChangeOnlyWhenVerified :
    let s := withMoves [.portAnswer .ok]
      { running .rxc1 .xrd [0] with
        sq :=
          { State.reset.sq with
            phase := .rxc1, op := .xrd, n := 2, k := 1, stg := Vector.replicate 16 5 } }
    nextIs (step s) (fun t => t.res != s.res && t.status.rvalid) = true := by decide +kernel
theorem witness_FailedReadLeavesNoResult :
    let s := withMoves [.portAnswer (.ioErr 9 [] 0)] (running .rxd .xrd [])
    State.Inv (running .rxd .xrd []) ∧ s.sq.op = .xrd
      ∧ nextIs (step s) (fun t => t.sq.phase == .idle && t.status.code == .errIo) = true :=
  ⟨running_Inv _ _ _ (by decide +kernel) (by decide +kernel) (by decide +kernel) (by decide +kernel), rfl, by decide +kernel⟩
/-- 3 x 3 operations for XWR, 3 x (4 + 3) for XRD. -/
theorem witness_StreamOperationsAreBounded :
    nextIs (exec (.xwr 0x12 2) idleState) (fun t => opsLeft t == 9) = true
      ∧ nextIs (exec (.xrd 0x12 2) idleState) (fun t => opsLeft t == 21) = true
      ∧ State.Inv (running .rxd .xrd [1]) ∧ opsLeft (running .rxd .xrd [1]) = 19 :=
  ⟨by decide +kernel, by decide +kernel, running_Inv _ _ _ (by decide +kernel) (by decide +kernel) (by decide +kernel) (by decide +kernel), by decide +kernel⟩
theorem witness_UnspecifiedVariablesAreInvisible :
    idleState.status.busy = false ∧ idleState.sq.phase = .idle
      ∧ withUnspecified { State.reset.sq with i := 3, rxcrc := 0x1234, tof := true } idleState ≠ idleState :=
  ⟨rfl, rfl, by decide +kernel⟩

/-- A wait that finds the block idle, one that finds it busy, and a run in which it ends. -/
theorem witness_WaitEndsWhenBusyClears :
    idleState.status.busy = false ∧ (running .ack .xwr []).status.busy = true
      ∧ (match runHosted [.host, .block] { listing := [.wait], block := idleState } with
        | .next h => h.listing == []
        | .fault _ => false
        | .refused _ => false) = true := by decide +kernel

end Sys2Proof.Tests
end

section
/-! SUPPORT and RESULTS. The host register port: what an admitted access does, the undefined bits of the
registers, and the two obligations of 10_state.md about them (O23, O24). -/

namespace Sys2Proof.Machine

/-! ### An admitted access -/

theorem step_of_inputs_cons {s : State} {e : Input} {rest : List Input} (h : s.inputs = e :: rest) :
    step s = handle e { s with inputs := rest } := by
  simp [step, takeInput, h]

theorem hostRead_of_aligned {off : Nat} (s : State) (ha : off % 4 = 0) (hb : off < 0x1000) :
    hostRead .word off s = .next { s with readLog := s.readLog ++ [regRead s off] } := by
  simp [hostRead, (notAdmitted_eq_none_iff .word off).mpr ⟨rfl, ha, hb⟩]

theorem hostWrite_of_aligned {off : Nat} (v : Word) (s : State) (ha : off % 4 = 0)
    (hb : off < 0x1000) : hostWrite .word off v s = regWrite off v s := by
  simp [hostWrite, (notAdmitted_eq_none_iff .word off).mpr ⟨rfl, ha, hb⟩]

/-- 10_state.md R14: the dropped write. -/
theorem regWrite_of_busy {s : State} {off : Nat} (v : Word) (h : s.status.busy = true)
    (hoff : off ≠ 0x004) : regWrite off v s = .next (dropWrite s) := by
  simp [regWrite, h, regAt_eq_status_iff, hoff]

theorem regWrite_of_idle {s : State} (off : Nat) (v : Word) (h : s.status.busy = false) :
    regWrite off v s = writeReg (regAt off) v s := by
  simp [regWrite, h]

/-- The written value matters to a host write only through `writeReg`: whether the write is admitted or
dropped does not depend on it. -/
theorem hostWrite_congr_of_writeReg {size : AccessSize} {off : Nat} {r : Reg} {v v' : Word} {s : State}
    (hr : regAt off = r) (h : writeReg r v s = writeReg r v' s) :
    hostWrite size off v s = hostWrite size off v' s := by
  simp [hostWrite, regWrite, hr, h]

/-! ### The register map -/

theorem regAt_fwid (i : Fin 16) : regAt (0x080 + 4 * i.val) = .fwid i.val := by
  have hi := i.isLt
  simp (disch := omega) only [regAt, if_neg, if_pos]
  congr 1
  omega

theorem regAt_of_reserved {off : Nat} (h : (0x020 ≤ off ∧ off < 0x040) ∨ 0x144 ≤ off) :
    regAt off = .reserved := by
  obtain ⟨hlo, hhi⟩ | hlo := h
  · simp (disch := omega) only [regAt, if_neg, if_pos]
  · simp (disch := omega) only [regAt, if_neg]

/-! ### Undefined bits of a register's value -/

theorem extractLsb'_setWidth_above {k : Nat} (x : BitVec k) (n len : Nat) :
    (x.setWidth n).extractLsb' k len = 0 := by
  ext i hi
  simp

/-- 10_state.md R13: bits 31:16 of STATUS are not defined. -/
theorem Status.word_undefined_bits (t : Status) : t.word.extractLsb' 16 16 = 0 := by
  unfold Status.word
  iterate 6 refine (BitVec.extractLsb'_append_eq_of_le (by decide)).trans ?_
  rfl

/-- 10_state.md R15: bits 31:17 of CFG are not defined. -/
theorem Cfg.word_undefined_bits (c : Cfg) : c.word.extractLsb' 17 15 = 0 := by
  unfold Cfg.word
  iterate 3 refine (BitVec.extractLsb'_append_eq_of_le (by decide)).trans ?_
  rfl

/-! ### Undefined bits of a written value -/

theorem writeStatus_congr {v v' : Word} (h : v.getLsbD 3 = v'.getLsbD 3) (s : State) :
    writeStatus v s = writeStatus v' s := by
  rw [writeStatus, writeStatus, h]

theorem extractLsb'_congr_of_setWidth {w k : Nat} {v v' : BitVec w}
    (h : v.setWidth k = v'.setWidth k) {start len : Nat} (hle : start + len ≤ k) :
    v.extractLsb' start len = v'.extractLsb' start len := by
  rw [← BitVec.extractLsb'_setWidth_of_le hle, h, BitVec.extractLsb'_setWidth_of_le hle]

theorem Cfg.ofWord_congr {v v' : Word} (h : v.setWidth 17 = v'.setWidth 17) :
    Cfg.ofWord v = Cfg.ofWord v' := by
  have hbit : v.getLsbD 16 = v'.getLsbD 16 := by
    simpa using congrArg (BitVec.getLsbD · 16) h
  simp only [Cfg.ofWord, hbit, extractLsb'_congr_of_setWidth (start := 0) (len := 8) h (by decide),
    extractLsb'_congr_of_setWidth (start := 8) (len := 8) h (by decide)]

end Sys2Proof.Machine

namespace Sys2Proof.Proofs

open Sys2Proof.Machine

/-- Settles O23: the next move is the access, which is admitted; a write is dropped, a read served. -/
theorem busyDropsHostWrites : Obligations.BusyDropsHostWrites := by
  intro s off v rest hbusy ha hb
  refine ⟨fun hoff hin => ?_, fun hin => ?_⟩
  · calc step s = regWrite off v { s with inputs := rest } :=
          (step_of_inputs_cons hin).trans (hostWrite_of_aligned v _ ha hb)
      _ = .next (dropWrite { s with inputs := rest }) := regWrite_of_busy v hbusy hoff
  · exact (step_of_inputs_cons hin).trans (hostRead_of_aligned _ ha hb)

/-- Settles O24, register by register: `readReg` reads the undefined bits as 0, and `writeReg` does not
look at them. -/
theorem reservedBitsReadZeroIgnoreWrites : Obligations.ReservedBitsReadZeroIgnoreWrites := by
  intro s
  refine ⟨s.status.word_undefined_bits, s.cfg.word_undefined_bits,
    extractLsb'_setWidth_above s.crc 32 16, extractLsb'_setWidth_above s.txlen 32 25,
    fun i => ?fwidRead, fun off _ hres => ?reservedRead, fun v v' h => ?statusWrite,
    fun v v' h => ?cfgWrite, fun i v v' h => ?fwidWrite, fun off v ha hb hres hidle => ?reservedWrite⟩
  case fwidRead =>
    rw [regRead, regAt_fwid]
    exact extractLsb'_setWidth_above (fwidAt s i) 32 24
  case reservedRead => rw [regRead, regAt_of_reserved hres, readReg]
  case statusWrite =>
    exact hostWrite_congr_of_writeReg (r := .status) rfl
      (by rw [writeReg, writeReg, writeStatus_congr h])
  case cfgWrite =>
    exact hostWrite_congr_of_writeReg (r := .cfg) rfl (by rw [writeReg, writeReg, Cfg.ofWord_congr h])
  case fwidWrite =>
    exact hostWrite_congr_of_writeReg (regAt_fwid i)
      (by rw [writeReg, writeReg, extractLsb'_congr_of_setWidth h (by decide)])
  case reservedWrite =>
    rw [hostWrite_of_aligned v s ha hb, regWrite_of_idle off v hidle, regAt_of_reserved hres, writeReg]

end Sys2Proof.Proofs
end

section
/-! SUPPORT and RESULTS. The register map of 20_memory.md read and written register by register (O20, O21),
the accesses it does not admit (O22), and the stream port's operations (O26, O27, O28). -/

namespace Sys2Proof.Machine

/-! ### The register map and its inverse -/

/-- The register is one of 20_memory.md R41: its index is within the array of its name. -/
def regInMap : Reg → Prop
  | .fval i => i < 16
  | .fwid i => i < 16
  | .res i => i < 16
  | .txbufWord m => m < 17
  | _ => True

theorem regAt_regOffset (r : Reg) (h : regInMap r) : regAt (regOffset r) = r := by
  cases r with
  | fval i =>
    have hi : i < 16 := h
    simp (disch := omega) only [regOffset, regAt, if_neg, if_pos, Nat.add_sub_cancel_left,
      Nat.mul_div_cancel_left]
  | fwid i => exact regAt_fwid ⟨i, h⟩
  | res i =>
    have hi : i < 16 := h
    simp (disch := omega) only [regOffset, regAt, if_neg, if_pos, Nat.add_sub_cancel_left,
      Nat.mul_div_cancel_left]
  | txbufWord m =>
    have hm : m < 17 := h
    simp (disch := omega) only [regOffset, regAt, if_neg, if_pos, Nat.add_sub_cancel_left,
      Nat.mul_div_cancel_left]
  | _ => rfl

theorem regRead_regOffset (s : State) (r : Reg) (h : regInMap r) :
    regRead s (regOffset r) = readReg s r := by
  rw [regRead, regAt_regOffset r h]

/-- The registers from 0x0C0 on are the outputs of the block: results, output buffer, reserved. -/
theorem regAt_of_outputs {off : Nat} (h : 0x0C0 ≤ off) :
    (∃ i, regAt off = .res i) ∨ (∃ m, regAt off = .txbufWord m) ∨ regAt off = .reserved := by
  by_cases hres : off < 0x100
  · exact .inl ⟨(off - 0x0C0) / 4, by simp (disch := omega) only [regAt, if_neg, if_pos]⟩
  · by_cases htx : off < 0x144
    · exact .inr (.inl ⟨(off - 0x100) / 4, by simp (disch := omega) only [regAt, if_neg, if_pos]⟩)
    · exact .inr (.inr (regAt_of_reserved (.inr (Nat.not_lt.mp htx))))

/-! ### The values of registers with fields -/

theorem toNat_append_eq_add {m n : Nat} (x : BitVec m) (y : BitVec n) :
    (x ++ y).toNat = 2 ^ n * x.toNat + y.toNat := by
  rw [BitVec.toNat_append, ← Nat.shiftLeft_add_eq_or_of_lt y.isLt, Nat.shiftLeft_eq, Nat.mul_comm]

/-- 10_state.md R13: each field of STATUS at its bits. -/
theorem Status.word_toNat (t : Status) :
    t.word.toNat = t.busy.toNat + 2 * t.done.toNat + 4 * t.rvalid.toNat + 8 * t.ovr.toNat
      + 16 * t.code.bits.toNat + 256 * t.attempts.toNat := by
  simp only [Status.word, toNat_append_eq_add, BitVec.toNat_ofBool, BitVec.toNat_ofNat]
  omega

/-- 10_state.md R15: each field of CFG at its bits. -/
theorem Cfg.word_toNat (c : Cfg) :
    c.word.toNat = c.addr.toNat + 256 * c.tries.toNat + 65536 * c.ioRetry.toNat := by
  simp only [Cfg.word, toNat_append_eq_add, BitVec.toNat_ofBool, BitVec.toNat_ofNat]
  omega

/-- 20_memory.md R41: byte `q` of a TXBUF word is its lane `q`. -/
theorem byteOf_ofLanes (b : Nat → Byte) (q : Fin 4) :
    byteOf (ofLanes (b 0) (b 1) (b 2) (b 3)) q = b q := by
  unfold byteOf ofLanes
  match q with
  | 0 => exact BitVec.extractLsb'_append_eq_right
  | 1 =>
    exact (BitVec.extractLsb'_append_eq_of_le (by decide)).trans BitVec.extractLsb'_append_eq_right
  | 2 =>
    iterate 2 refine (BitVec.extractLsb'_append_eq_of_le (by decide)).trans ?_
    exact BitVec.extractLsb'_append_eq_right
  | 3 =>
    iterate 2 refine (BitVec.extractLsb'_append_eq_of_le (by decide)).trans ?_
    exact BitVec.extractLsb'_append_eq_left

theorem fvalAt_fin (s : State) (i : Fin 16) : fvalAt s i = s.fval[i] := by simp [fvalAt]

theorem fwidAt_fin (s : State) (i : Fin 16) : fwidAt s i = s.fwid[i] := by simp [fwidAt]

theorem resAt_fin (s : State) (i : Fin 16) : resAt s i = s.res[i] := by simp [resAt]

/-! ### Register writes -/

theorem setIfInBounds_fin {α : Type} {n : Nat} (xs : Vector α n) (i : Fin n) (x : α) :
    xs.setIfInBounds i.val x = xs.set i.val x i.isLt := by
  ext j hj
  simp [Vector.getElem_setIfInBounds, Vector.getElem_set]

/-- 10_state.md R14: a write to STATUS is served whether BUSY is 1 or not. -/
theorem regWrite_status (v : Word) (s : State) :
    regWrite 0x004 v s = .next (writeStatus v s) := by
  simp [regWrite, (regAt_eq_status_iff 0x004).mpr, writeReg]

/-- 60_exceptions.md R140, R142: a word written to CMD runs its command, or completes as illegal. -/
theorem writeCmd_of_idle {s : State} (w : Word) (h : s.status.busy = false) :
    writeCmd w s =
      match decode w with
      | .ok i => exec i s
      | .error _ => .next (completedIllegal w s) := by
  unfold writeCmd
  cases decode w with
  | ok i => rfl
  | error e => exact congrArg Host.Outcome.next (illegalCommand_of_idle w h)

/-- 20_memory.md R43: an admitted write to a register of an idle block has that register's effect. -/
theorem hostWrite_register_of_idle {s : State} {off : Nat} (r : Reg) (v : Word) (ha : off % 4 = 0)
    (hb : off < 0x1000) (hidle : s.status.busy = false) (hr : regInMap r) (hoff : off = regOffset r) :
    hostWrite .word off v s = writeReg r v s := by
  rw [hostWrite_of_aligned v s ha hb, regWrite_of_idle off v hidle, hoff, regAt_regOffset r hr]

/-- 20_memory.md R41: the offsets of the registers a host can only read, and the reserved ones. -/
theorem writeReg_of_readOnly {off : Nat} (v : Word) (s : State)
    (h : off = 0x00C ∨ off = 0x018 ∨ off = 0x01C ∨ (0x020 ≤ off ∧ off < 0x040) ∨ 0x0C0 ≤ off) :
    writeReg (regAt off) v s = .next s := by
  obtain rfl | rfl | rfl | hres | hout := h
  · rfl
  · rfl
  · rfl
  · rw [regAt_of_reserved (.inl hres), writeReg]
  · obtain ⟨i, hr⟩ | ⟨m, hr⟩ | hr := regAt_of_outputs hout <;> rw [hr, writeReg]

/-! ### An access that is not admitted -/

theorem notAdmitted_of_unadmitted {size : AccessSize} {off : Nat}
    (h : size ≠ .word ∨ off % 4 ≠ 0 ∨ 0x1000 ≤ off) : ∃ f, notAdmitted size off = some f := by
  refine Option.ne_none_iff_exists'.mp fun hnone => ?_
  obtain ⟨hsize, halign, hbound⟩ := (notAdmitted_eq_none_iff size off).mp hnone
  obtain hsub | hmis | hout := h
  · exact hsub hsize
  · exact hmis halign
  · exact absurd hbound (Nat.not_lt.mpr hout)

/-! ### The stream port's choices -/

/-- The two outcomes of 20_memory.md R48 as one next state: only the input buffer can change. -/
theorem deviceArrival_eq (b : Byte) (s : State) :
    deviceArrival b s =
      { s with port := { s.port with
          rxq := if s.port.rxq.length < s.build.rxDepth then s.port.rxq ++ [b] else s.port.rxq } } := by
  obtain ⟨hroom, hd⟩ | ⟨hfull, hd⟩ := deviceArrival_cases b s
  · rw [hd, if_pos hroom]
  · rw [hd, if_neg hfull]

/-- 20_memory.md R49: every sub-list of the buffer is the choice of some marking of its places. -/
theorem exists_keptBy_eq {kept xs : List Byte} (h : kept.Sublist xs) : ∃ keep, keptBy keep xs = kept := by
  induction h with
  | slnil => exact ⟨[], rfl⟩
  | cons x _ ih =>
    obtain ⟨keep, hkeep⟩ := ih
    exact ⟨false :: keep, by simpa [keptBy] using hkeep⟩
  | cons_cons x _ ih =>
    obtain ⟨keep, hkeep⟩ := ih
    exact ⟨true :: keep, by simpa [keptBy] using hkeep⟩

end Sys2Proof.Machine

namespace Sys2Proof.Proofs

open Sys2Proof.Machine

/-- Settles O20, register by register: the offset is that of a register of the map, whose value has each
field at its bits. -/
theorem registerReadsReturnFields : Obligations.RegisterReadsReturnFields := by
  intro s
  refine ⟨fun off ha hb => hostRead_of_aligned s ha hb, rfl, ?status, s.cfg.word_toNat,
    BitVec.toNat_setWidth_of_le (by decide), rfl, rfl, rfl, BitVec.toNat_setWidth_of_le (by decide),
    fun i => ⟨?fval, ?fwid, ?res⟩, fun m q => ?txbuf, fun off _ hres => ?reserved⟩
  case status =>
    refine s.status.word_toNat.trans ?_
    cases s.status.code <;> rfl
  case fval =>
    exact (regRead_regOffset s (.fval i) i.isLt).trans (fvalAt_fin s i)
  case fwid =>
    calc (regRead s (0x080 + 4 * i.val)).toNat = ((fwidAt s i).setWidth 32).toNat :=
          congrArg BitVec.toNat (regRead_regOffset s (.fwid i) i.isLt)
      _ = (fwidAt s i).toNat := BitVec.toNat_setWidth_of_le (by decide)
      _ = s.fwid[i].toNat := congrArg BitVec.toNat (fwidAt_fin s i)
  case res =>
    exact (regRead_regOffset s (.res i) i.isLt).trans (resAt_fin s i)
  case txbuf =>
    calc (regRead s (0x100 + 4 * m.val)).extractLsb' (8 * q.val) 8
        = byteOf (readReg s (.txbufWord m)) q :=
          congrArg (byteOf · q) (regRead_regOffset s (.txbufWord m) m.isLt)
      _ = txbufAt s (4 * m.val + q.val) := byteOf_ofLanes (fun p => txbufAt s (4 * m.val + p)) q
  case reserved => rw [regRead, regAt_of_reserved hres, readReg]

/-- Settles O21: the access is admitted; a busy block drops it, STATUS takes it at any time, and an idle
block gives it the effect of the register at its offset. -/
theorem registerWritesTakeEffect : Obligations.RegisterWritesTakeEffect := by
  intro s off v ha hb
  refine ⟨fun hoff hbusy => ?dropped, fun hoff hbit => ?clearsOvr, fun hoff hbit => ?ignored,
    fun hidle => ⟨fun hoff => ?cmd, fun hoff => ?cfg, fun hoff => ?data, fun hoff => ?bytes,
      fun i hoff => ?fval, fun i hoff => ?fwid, fun hoff => ?readOnly⟩⟩
  case dropped => exact (hostWrite_of_aligned v s ha hb).trans (regWrite_of_busy v hbusy hoff)
  case clearsOvr =>
    rw [hostWrite_of_aligned v s ha hb, hoff, regWrite_status, writeStatus, if_pos hbit]
  case ignored =>
    rw [hostWrite_of_aligned v s ha hb, hoff, regWrite_status, writeStatus, hbit]
    rfl
  case cmd =>
    exact (hostWrite_register_of_idle .cmd v ha hb hidle trivial hoff).trans (writeCmd_of_idle v hidle)
  case cfg => exact hostWrite_register_of_idle .cfg v ha hb hidle trivial hoff
  case data => exact hostWrite_register_of_idle .data v ha hb hidle trivial hoff
  case bytes => exact hostWrite_register_of_idle .bytes v ha hb hidle trivial hoff
  case fval =>
    rw [hostWrite_register_of_idle (.fval i) v ha hb hidle i.isLt hoff, writeReg, setIfInBounds_fin]
  case fwid =>
    rw [hostWrite_register_of_idle (.fwid i) v ha hb hidle i.isLt hoff, writeReg, setIfInBounds_fin]
  case readOnly =>
    rw [hostWrite_of_aligned v s ha hb, regWrite_of_idle off v hidle, writeReg_of_readOnly v s hoff]

/-- Settles O27: the failed flush keeps what its marking marks, and every sub-list has a marking. -/
theorem flushEmptiesOrLeavesSublist : Obligations.FlushEmptiesOrLeavesSublist := by
  intro s
  refine ⟨rfl, fun info keep sent => ?_, fun info kept hsub => ?_⟩
  · exact ⟨keptBy keep s.port.rxq, keptBy_sublist keep s.port.rxq, rfl⟩
  · obtain ⟨keep, hkeep⟩ := exists_keptBy_eq hsub
    exact ⟨keep, 0, hkeep⟩

/-- Settles O28: the failed write sends as many bytes as the answer says, and a first part is what its own
length takes. -/
theorem writeSendsAllOrFirstPart : Obligations.WriteSendsAllOrFirstPart := by
  intro s bs
  refine ⟨rfl, fun info keep n => ?_, fun info sent hpre => ?_⟩
  · exact ⟨bs.take n, List.take_prefix n bs, rfl⟩
  · have htake : bs.take sent.length = sent := (List.prefix_iff_eq_take.mp hpre).symm
    exact ⟨[], sent.length, congrArg (fun p => s.txlog.packets ++ [p]) htake⟩

/-- Settles O22: the reason the access is not admitted is the fault of a read and of a write. -/
theorem unadmittedAccessHasNoStep : Obligations.UnadmittedAccessHasNoStep := by
  intro s size off v h
  obtain ⟨f, hf⟩ := notAdmitted_of_unadmitted h
  exact ⟨⟨f, by rw [hostRead, hf]⟩, ⟨f, by rw [hostWrite, hf]⟩⟩

/-- Settles O26: the move is handled by `deviceArrival`, in every phase alike. -/
theorem deviceByteAppendedOrLost : Obligations.DeviceByteAppendedOrLost := by
  intro s b rest hin
  calc step s = .next (deviceArrival b { s with inputs := rest }) := step_of_inputs_cons hin
    _ = _ := congrArg Host.Outcome.next (deviceArrival_eq b { s with inputs := rest })

end Sys2Proof.Proofs
end

section
/-! SUPPORT and RESULTS. The two readings of 30_encoding.md R66, its list of illegal words and its decoding
procedure, agree on every word; the write of an illegal word to CMD (O4). -/

namespace Sys2Proof.Machine

/-! ### The classes of opcodes -/

/-- The opcodes that are not reserved (30_encoding.md R61). -/
def opcodes : List Byte := [0x01, 0x02, 0x03, 0x10, 0x11, 0x12, 0x18, 0x19, 0x1A, 0x20, 0x21]

/-- The opcodes of the commands that use no field (30_encoding.md R61). -/
def bareOpcodes : List Byte := [0x01, 0x10, 0x11, 0x12, 0x18, 0x19, 0x1A]

/-- The opcodes of the commands that send a request (30_encoding.md R61). -/
def framedOpcodes : List Byte := [0x20, 0x21]

/-- The classes cover the opcode map: bare, framed, CRC.FEED, CRC.FEEDB. -/
theorem not_mem_opcodes {opc : Byte} (hbare : opc ∉ bareOpcodes) (hframed : opc ∉ framedOpcodes)
    (hfeed : opc ≠ 0x02) (hfeedb : opc ≠ 0x03) : opc ∉ opcodes := by
  simp only [opcodes, bareOpcodes, framedOpcodes, List.mem_cons, not_or] at *
  tauto

/-! ### The decoder on each class -/

theorem decodeBare_error_iff (w : Word) (i : Instr) :
    (∃ e, decodeBare w i = .error e) ↔ fieldKc w ≠ 0 ∨ fieldN w ≠ 0 ∨ fieldImm w ≠ 0 := by
  rw [← not_and_or, ← not_and_or]
  unfold decodeBare
  split_ifs with hzero
  · simp [hzero]
  · exact iff_of_true ⟨_, rfl⟩ hzero

theorem decodeFramed_error_iff (w : Word) (mk : Byte → BitVec 5 → Instr) :
    (∃ e, decodeFramed w mk = .error e) ↔ fieldImm w ≠ 0 ∨ 16 < (fieldN w).toNat := by
  unfold decodeFramed Config.maxFields
  split_ifs with himm hn
  · exact iff_of_true ⟨_, rfl⟩ (.inl himm)
  · simp [not_ne_iff.mp himm, hn]
  · exact iff_of_true ⟨_, rfl⟩ (.inr (Nat.not_le.mp hn))

theorem decode_of_bareOpcode {w : Word} (hrsv : fieldRsv w = 0) (hopc : fieldOpc w ∈ bareOpcodes) :
    ∃ i, decode w = decodeBare w i := by
  simp only [bareOpcodes, List.mem_cons, List.not_mem_nil, or_false] at hopc
  obtain h | h | h | h | h | h | h := hopc <;> exact ⟨_, by rw [decode, hrsv, h]; rfl⟩

theorem decode_of_framedOpcode {w : Word} (hrsv : fieldRsv w = 0) (hopc : fieldOpc w ∈ framedOpcodes) :
    ∃ mk, decode w = decodeFramed w mk := by
  simp only [framedOpcodes, List.mem_cons, List.not_mem_nil, or_false] at hopc
  obtain h | h := hopc <;> exact ⟨_, by rw [decode, hrsv, h]; rfl⟩

theorem decode_of_crcFeed {w : Word} (hrsv : fieldRsv w = 0) (hopc : fieldOpc w = 0x02) :
    decode w =
      if fieldKc w = 0 ∧ fieldN w = 0 then .ok (.crcFeed (fieldImm w)) else .error .unusedField := by
  rw [decode, hrsv, hopc]; rfl

theorem decode_of_crcFeedb {w : Word} (hrsv : fieldRsv w = 0) (hopc : fieldOpc w = 0x03) :
    decode w =
      if fieldKc w = 0 ∧ fieldN w = 0 then
        if (fieldImm w).toNat ≤ 4 then .ok (.crcFeedb (fieldImm w)) else .error .tooManyLanes
      else .error .unusedField := by
  rw [decode, hrsv, hopc]; rfl

theorem decode_of_reservedOpcode {w : Word} (hrsv : fieldRsv w = 0) (hopc : fieldOpc w ∉ opcodes) :
    decode w = .error .reservedOpcode := by
  simp only [opcodes, List.mem_cons, List.not_mem_nil, or_false, not_or] at hopc
  simp only [decode, hrsv, hopc, ne_eq, not_true, if_false]

/-! ### The list of R66 on each class -/

theorem illegalCommandWord_iff (w : Word) :
    IllegalCommandWord w ↔
      fieldOpc w ∉ opcodes ∨ fieldRsv w ≠ 0
        ∨ (fieldOpc w ∉ framedOpcodes ∧ (fieldKc w ≠ 0 ∨ fieldN w ≠ 0))
        ∨ (fieldOpc w ∉ ([0x02, 0x03] : List Byte) ∧ fieldImm w ≠ 0)
        ∨ (fieldOpc w ∈ framedOpcodes ∧ 16 < (fieldN w).toNat)
        ∨ (fieldOpc w = 0x03 ∧ 4 < (fieldImm w).toNat) := Iff.rfl

theorem illegal_iff_of_bareOpcode {w : Word} (hrsv : fieldRsv w = 0) (hopc : fieldOpc w ∈ bareOpcodes) :
    IllegalCommandWord w ↔ fieldKc w ≠ 0 ∨ fieldN w ≠ 0 ∨ fieldImm w ≠ 0 := by
  simp only [bareOpcodes, List.mem_cons, List.not_mem_nil, or_false] at hopc
  obtain h | h | h | h | h | h | h := hopc <;>
    simp [illegalCommandWord_iff, opcodes, framedOpcodes, hrsv, h, or_assoc]

theorem illegal_iff_of_framedOpcode {w : Word} (hrsv : fieldRsv w = 0)
    (hopc : fieldOpc w ∈ framedOpcodes) :
    IllegalCommandWord w ↔ fieldImm w ≠ 0 ∨ 16 < (fieldN w).toNat := by
  simp only [framedOpcodes, List.mem_cons, List.not_mem_nil, or_false] at hopc
  obtain h | h := hopc <;> simp [illegalCommandWord_iff, opcodes, framedOpcodes, hrsv, h]

theorem illegal_iff_of_crcFeed {w : Word} (hrsv : fieldRsv w = 0) (hopc : fieldOpc w = 0x02) :
    IllegalCommandWord w ↔ fieldKc w ≠ 0 ∨ fieldN w ≠ 0 := by
  simp [illegalCommandWord_iff, opcodes, framedOpcodes, hrsv, hopc]

theorem illegal_iff_of_crcFeedb {w : Word} (hrsv : fieldRsv w = 0) (hopc : fieldOpc w = 0x03) :
    IllegalCommandWord w ↔ (fieldKc w ≠ 0 ∨ fieldN w ≠ 0) ∨ 4 < (fieldImm w).toNat := by
  simp [illegalCommandWord_iff, opcodes, framedOpcodes, hrsv, hopc]

/-! ### The decoder rejects the illegal words -/

theorem decode_error_iff_illegal (w : Word) : (∃ e, decode w = .error e) ↔ IllegalCommandWord w := by
  by_cases hrsv : fieldRsv w = 0
  case neg => exact iff_of_true ⟨.reservedBits, if_pos hrsv⟩ (.inr (.inl hrsv))
  by_cases hbare : fieldOpc w ∈ bareOpcodes
  · obtain ⟨i, hi⟩ := decode_of_bareOpcode hrsv hbare
    rw [hi, decodeBare_error_iff, illegal_iff_of_bareOpcode hrsv hbare]
  by_cases hframed : fieldOpc w ∈ framedOpcodes
  · obtain ⟨mk, hmk⟩ := decode_of_framedOpcode hrsv hframed
    rw [hmk, decodeFramed_error_iff, illegal_iff_of_framedOpcode hrsv hframed]
  by_cases hfeed : fieldOpc w = 0x02
  · rw [decode_of_crcFeed hrsv hfeed, illegal_iff_of_crcFeed hrsv hfeed, ← not_and_or]
    split_ifs with hzero
    · simp [hzero]
    · exact iff_of_true ⟨_, rfl⟩ hzero
  by_cases hfeedb : fieldOpc w = 0x03
  · rw [decode_of_crcFeedb hrsv hfeedb, illegal_iff_of_crcFeedb hrsv hfeedb, ← not_and_or]
    split_ifs with hzero hlanes
    · simp [hzero, hlanes]
    · exact iff_of_true ⟨_, rfl⟩ (.inr (Nat.not_le.mp hlanes))
    · exact iff_of_true ⟨_, rfl⟩ (.inl hzero)
  have hopc := not_mem_opcodes hbare hframed hfeed hfeedb
  exact iff_of_true ⟨_, decode_of_reservedOpcode hrsv hopc⟩ (.inl hopc)

/-! ### The completion of an illegal word -/

/-- Where BUSY is 0 and the sequencer IDLE already, the completion has only the four effects R66 names. -/
theorem completedIllegal_of_idle {s : State} (w : Word) (hbusy : s.status.busy = false)
    (hphase : s.sq.phase = .idle) :
    completedIllegal w s =
      { s with
        status := { s.status with done := true, code := .errIllegal, attempts := 0 }
        errinfo := w } := by
  rw [completedIllegal, ← hbusy, ← hphase]

theorem writeCmd_of_illegal {s : State} {w : Word} (hbusy : s.status.busy = false)
    (hill : IllegalCommandWord w) : writeCmd w s = .next (completedIllegal w s) := by
  obtain ⟨e, he⟩ := (decode_error_iff_illegal w).mpr hill
  rw [writeCmd_of_idle w hbusy, he]

end Sys2Proof.Machine

namespace Sys2Proof.Proofs

open Sys2Proof.Machine

/-- Settles O4: the decoder rejects the word, and from an idle block the completion it then has changes
nothing that R66 does not name. -/
theorem illegalWordCompletesAtOnce : Obligations.IllegalWordCompletesAtOnce := by
  intro s w hbusy hphase hill
  calc hostWrite .word 0x000 w s = writeCmd w s :=
        hostWrite_register_of_idle .cmd w rfl (by decide) hbusy trivial rfl
    _ = .next (completedIllegal w s) := writeCmd_of_illegal hbusy hill
    _ = _ := congrArg Host.Outcome.next (completedIllegal_of_idle w hbusy hphase)

end Sys2Proof.Proofs
end

section
/-! SUPPORT and RESULTS. The word of a command read back by the decoder, and the checksum commands of
41_checksum.md: CRC.CLR, CRC.FEED, CRC.FEEDB and the reading of CRC (O10 to O13). -/

namespace Sys2Proof.Machine

/-! ### The fields of a command word -/

@[simp] theorem fieldOpc_cmdWord (opc kc : Byte) (n : BitVec 5) (imm : Byte) :
    fieldOpc (cmdWord opc kc n imm) = opc := by
  unfold fieldOpc cmdWord
  iterate 3 refine (BitVec.extractLsb'_append_eq_of_le (by decide)).trans ?_
  exact BitVec.extractLsb'_append_eq_left

@[simp] theorem fieldKc_cmdWord (opc kc : Byte) (n : BitVec 5) (imm : Byte) :
    fieldKc (cmdWord opc kc n imm) = kc := by
  unfold fieldKc cmdWord
  iterate 3 refine (BitVec.extractLsb'_append_eq_of_le (by decide)).trans ?_
  exact BitVec.extractLsb'_append_eq_right

@[simp] theorem fieldRsv_cmdWord (opc kc : Byte) (n : BitVec 5) (imm : Byte) :
    fieldRsv (cmdWord opc kc n imm) = 0 := by
  unfold fieldRsv cmdWord
  iterate 2 refine (BitVec.extractLsb'_append_eq_of_le (by decide)).trans ?_
  exact BitVec.extractLsb'_append_eq_right

@[simp] theorem fieldN_cmdWord (opc kc : Byte) (n : BitVec 5) (imm : Byte) :
    fieldN (cmdWord opc kc n imm) = n := by
  unfold fieldN cmdWord
  refine (BitVec.extractLsb'_append_eq_of_le (by decide)).trans ?_
  exact BitVec.extractLsb'_append_eq_right

@[simp] theorem fieldImm_cmdWord (opc kc : Byte) (n : BitVec 5) (imm : Byte) :
    fieldImm (cmdWord opc kc n imm) = imm := by
  unfold fieldImm cmdWord
  exact BitVec.extractLsb'_append_eq_right

theorem append_eq_or_setWidth {m n : Nat} (x : BitVec m) (y : BitVec n) :
    x ++ y = (x ++ 0#n) ||| y.setWidth (m + n) := by
  ext i hi
  simp only [BitVec.getElem_or, BitVec.getElem_append, BitVec.getElem_setWidth]
  by_cases hlow : i < n
  · simp [hlow]
  · simp [hlow, BitVec.getLsbD_of_ge y i (Nat.not_lt.mp hlow)]

/-- The operand of a command that uses IMM alone stands below the word of the opcode
(41_checksum.md R83, R84). -/
theorem cmdWord_imm (opc imm : Byte) :
    cmdWord opc 0 0 imm = cmdWord opc 0 0 0 ||| imm.setWidth 32 :=
  append_eq_or_setWidth _ imm

/-! ### The word of a command runs the command -/

theorem decodeFramed_cmdWord (opc kc : Byte) {n : BitVec 5} (mk : Byte → BitVec 5 → Instr)
    (hn : n.toNat ≤ Config.maxFields) : decodeFramed (cmdWord opc kc n 0) mk = .ok (mk kc n) := by
  simp [decodeFramed, hn]

/-- The decoder reads back the command, whose fields are legal. -/
theorem decode_encode {i : Instr} (h : i.wf = true) : decode (encode i) = .ok i := by
  cases i with
  | crcFeed b => rw [encode, decode_of_crcFeed] <;> simp
  | crcFeedb c =>
    have hc : c.toNat ≤ 4 := of_decide_eq_true h
    rw [encode, decode_of_crcFeedb] <;> simp [hc]
  | xwr kc n => simpa [encode, decode] using decodeFramed_cmdWord 0x20 kc .xwr (of_decide_eq_true h)
  | xrd kc n => simpa [encode, decode] using decodeFramed_cmdWord 0x21 kc .xrd (of_decide_eq_true h)
  | _ => rfl

/-- The word of a command, written to CMD, is the command (60_exceptions.md R140). -/
theorem writeCmd_encode {i : Instr} (s : State) (h : i.wf = true) :
    writeCmd (encode i) s = exec i s := by
  rw [writeCmd, decode_encode h]

theorem rejectsIllegalWords_of_idle {s : State} (opc : Byte) (hbusy : s.status.busy = false) :
    RejectsIllegalWords opc s :=
  fun _ _ hill => writeCmd_of_illegal hbusy hill

/-! ### The checksum commands of an idle block -/

theorem exec_crcClr_of_idle {s : State} (hbusy : s.status.busy = false) :
    exec .crcClr s = .next { completedOk s with crc := 0x0000 } :=
  congrArg Host.Outcome.next (issue_of_idle _ hbusy)

theorem exec_crcFeed_of_idle {s : State} (b : Byte) (hbusy : s.status.busy = false) :
    exec (.crcFeed b) s = .next { completedOk s with crc := crcStep s.crc b } :=
  congrArg Host.Outcome.next (issue_of_idle _ hbusy)

theorem exec_crcFeedb_of_idle {s : State} {c : Byte} (hbusy : s.status.busy = false)
    (hc : (Instr.crcFeedb c).wf = true) :
    exec (.crcFeedb c) s = .next { completedOk s with crc := crcBytes s.crc (lanes s c.toNat) } :=
  (if_pos hc).trans (congrArg Host.Outcome.next (issue_of_idle _ hbusy))

/-- 10_state.md R18: the lanes of BYTES are its four bytes, lane 0 in bits 7:0. -/
theorem lanes_eq_take (s : State) {c : Nat} (hc : c ≤ 4) :
    lanes s c =
      ([s.bytes.extractLsb' 0 8, s.bytes.extractLsb' 8 8, s.bytes.extractLsb' 16 8,
        s.bytes.extractLsb' 24 8] : List Byte).take c := by
  calc lanes s c = ((List.range 4).take c).map (lane s) := by
        rw [lanes, List.take_range, Nat.min_eq_left hc]
    _ = ((List.range 4).map (lane s)).take c := List.map_take
    _ = _ := rfl

end Sys2Proof.Machine

namespace Sys2Proof.Proofs

open Sys2Proof.Machine

/-- Settles O10: the idle block accepts the command, whose body writes the seed. -/
theorem crcClrResetsChecksum : Obligations.CrcClrResetsChecksum := by
  intro s hbusy
  exact ⟨exec_crcClr_of_idle hbusy, writeCmd_encode (i := .crcClr) s rfl,
    rejectsIllegalWords_of_idle 0x01 hbusy⟩

/-- Settles O11: the idle block accepts the command, and every byte is a legal operand, so its word
decodes. -/
theorem crcFeedFoldsOneByte : Obligations.CrcFeedFoldsOneByte := by
  intro s b hbusy
  have hword : encode (.crcFeed b) = 0x02000000 ||| b.setWidth 32 := cmdWord_imm 0x02 b
  refine ⟨exec_crcFeed_of_idle b hbusy, ?_, rejectsIllegalWords_of_idle 0x02 hbusy⟩
  rw [← hword, writeCmd_encode s rfl]

/-- Settles O12: the count is legal, so its word decodes and the command folds that many lanes, which are
the first bytes of BYTES. -/
theorem crcFeedbFoldsLanes : Obligations.CrcFeedbFoldsLanes := by
  intro s c hbusy hc
  have hwf : (Instr.crcFeedb c).wf = true := decide_eq_true hc
  have hword : encode (.crcFeedb c) = 0x03000000 ||| c.setWidth 32 := cmdWord_imm 0x03 c
  refine ⟨?_, ?_, rejectsIllegalWords_of_idle 0x03 hbusy⟩
  · rw [exec_crcFeedb_of_idle hbusy hwf, lanes_eq_take s hc]
  · rw [← hword, writeCmd_encode s hwf]

/-- Settles O13: the read is admitted, and CRC is the register at its offset. -/
theorem readingChecksumChangesNothing : Obligations.ReadingChecksumChangesNothing :=
  fun s => hostRead_of_aligned s rfl (by decide)

end Sys2Proof.Proofs
end

section
/-! SUPPORT and RESULTS. The codec of 42_codec.md: its functions be_bytes and be_join, the encodes and the
decodes (O15 to O17). -/

namespace Sys2Proof.Machine

/-! ### The codec functions -/

/-- 42_codec.md R90: the bytes of a value at the three legal widths, most significant first. -/
theorem beBytes_legalWidths (v : Word) :
    beBytes v 1 = [v.extractLsb' 0 8]
      ∧ beBytes v 2 = [v.extractLsb' 8 8, v.extractLsb' 0 8]
      ∧ beBytes v 4 =
        [v.extractLsb' 24 8, v.extractLsb' 16 8, v.extractLsb' 8 8, v.extractLsb' 0 8] :=
  ⟨rfl, rfl, rfl⟩

theorem beJoin_concat (bs : List Byte) (b : Byte) :
    beJoin (bs ++ [b]) = (beJoin bs <<< 8) ||| b.setWidth 32 :=
  List.foldl_append

/-- One turn of the join appends the byte below what is joined already. -/
theorem shiftLeft_or_eq_append {n : Nat} (x : BitVec n) (b : Byte) :
    (x.setWidth 32 <<< 8) ||| b.setWidth 32 = (x ++ b).setWidth 32 := by
  ext i hi
  simp only [BitVec.getElem_or, BitVec.getElem_shiftLeft, BitVec.getElem_setWidth,
    BitVec.getLsbD_append]
  by_cases hlow : i < 8
  · simp [hlow]
  · simp [hlow, BitVec.getLsbD_of_ge b i (Nat.not_lt.mp hlow)]

/-- 42_codec.md R91: bytes that join to `x` join, with one more, to `x` above that byte. -/
theorem beJoin_concat_of_eq {bs : List Byte} {n : Nat} {x : BitVec n} (b : Byte)
    (h : beJoin bs = x.setWidth 32) : beJoin (bs ++ [b]) = (x ++ b).setWidth 32 := by
  rw [beJoin_concat, h, shiftLeft_or_eq_append]

theorem beJoin_one (b0 : Byte) : beJoin [b0] = b0.setWidth 32 := by
  calc beJoin [b0] = 0#32 ||| b0.setWidth 32 := beJoin_concat [] b0
    _ = b0.setWidth 32 := BitVec.zero_or

theorem beJoin_two (b0 b1 : Byte) : beJoin [b0, b1] = (b0 ++ b1).setWidth 32 :=
  beJoin_concat_of_eq b1 (beJoin_one b0)

theorem beJoin_four (b0 b1 b2 b3 : Byte) : beJoin [b0, b1, b2, b3] = b0 ++ b1 ++ b2 ++ b3 := by
  have hthree : beJoin [b0, b1, b2] = (b0 ++ b1 ++ b2).setWidth 32 :=
    beJoin_concat_of_eq b2 (beJoin_two b0 b1)
  calc beJoin [b0, b1, b2, b3] = (b0 ++ b1 ++ b2 ++ b3).setWidth 32 := beJoin_concat_of_eq b3 hthree
    _ = b0 ++ b1 ++ b2 ++ b3 := BitVec.setWidth_eq _

/-! ### The codec commands of an idle block -/

theorem exec_enc8_of_idle {s : State} (hbusy : s.status.busy = false) :
    exec .enc8 s = .next { completedOk s with bytes := ofLanes (byteOf s.data 0) 0 0 0 } :=
  congrArg Host.Outcome.next (issue_of_idle _ hbusy)

theorem exec_enc16_of_idle {s : State} (hbusy : s.status.busy = false) :
    exec .enc16 s =
      .next { completedOk s with bytes := ofLanes (byteOf s.data 1) (byteOf s.data 0) 0 0 } :=
  congrArg Host.Outcome.next (issue_of_idle _ hbusy)

theorem exec_enc32_of_idle {s : State} (hbusy : s.status.busy = false) :
    exec .enc32 s =
      .next { completedOk s with
        bytes := ofLanes (byteOf s.data 3) (byteOf s.data 2) (byteOf s.data 1) (byteOf s.data 0) } :=
  congrArg Host.Outcome.next (issue_of_idle _ hbusy)

theorem exec_dec8_of_idle {s : State} (hbusy : s.status.busy = false) :
    exec .dec8 s = .next { completedOk s with data := beJoin [lane s 0] } :=
  congrArg Host.Outcome.next (issue_of_idle _ hbusy)

theorem exec_dec16_of_idle {s : State} (hbusy : s.status.busy = false) :
    exec .dec16 s = .next { completedOk s with data := beJoin [lane s 0, lane s 1] } :=
  congrArg Host.Outcome.next (issue_of_idle _ hbusy)

theorem exec_dec32_of_idle {s : State} (hbusy : s.status.busy = false) :
    exec .dec32 s =
      .next { completedOk s with data := beJoin [lane s 0, lane s 1, lane s 2, lane s 3] } :=
  congrArg Host.Outcome.next (issue_of_idle _ hbusy)

/-- 42_codec.md R92: the lanes above lane 0 are cleared. -/
theorem ofLanes_one (b0 : Byte) : ofLanes b0 0 0 0 = (0#24) ++ b0 := rfl

/-- 42_codec.md R93: the lanes above lane 1 are cleared. -/
theorem ofLanes_two (b0 b1 : Byte) : ofLanes b0 b1 0 0 = (0#16) ++ b1 ++ b0 := rfl

end Sys2Proof.Machine

namespace Sys2Proof.Proofs

open Sys2Proof.Machine

/-- Settles O15: the bytes are the definition's at each width, and a join of several bytes is the join of
one byte fewer with the last byte below it. -/
theorem beBytesAndBeJoinAreBigEndian : Obligations.BeBytesAndBeJoinAreBigEndian :=
  ⟨beBytes_legalWidths, fun b0 b1 b2 b3 => ⟨beJoin_one b0, beJoin_two b0 b1, beJoin_four b0 b1 b2 b3⟩⟩

/-- Settles O16: the idle block accepts each encode, whose body writes the lanes, and an encode has no
operand, so its word decodes. -/
theorem encodeCommandsSplitData : Obligations.EncodeCommandsSplitData := by
  intro s hbusy
  refine ⟨?enc8, ?enc16, exec_enc32_of_idle hbusy,
    writeCmd_encode (i := .enc8) s rfl, writeCmd_encode (i := .enc16) s rfl,
    writeCmd_encode (i := .enc32) s rfl, rejectsIllegalWords_of_idle 0x10 hbusy,
    rejectsIllegalWords_of_idle 0x11 hbusy, rejectsIllegalWords_of_idle 0x12 hbusy⟩
  case enc8 => rw [exec_enc8_of_idle hbusy, ofLanes_one]; rfl
  case enc16 => rw [exec_enc16_of_idle hbusy, ofLanes_two]; rfl

/-- Settles O17: the idle block accepts each decode, whose body joins the first lanes of BYTES, and a
decode has no operand, so its word decodes. -/
theorem decodeCommandsJoinBytes : Obligations.DecodeCommandsJoinBytes := by
  intro s hbusy
  refine ⟨?dec8, ?dec16, ?dec32,
    writeCmd_encode (i := .dec8) s rfl, writeCmd_encode (i := .dec16) s rfl,
    writeCmd_encode (i := .dec32) s rfl, rejectsIllegalWords_of_idle 0x18 hbusy,
    rejectsIllegalWords_of_idle 0x19 hbusy, rejectsIllegalWords_of_idle 0x1A hbusy⟩
  case dec8 => rw [exec_dec8_of_idle hbusy, beJoin_one]; rfl
  case dec16 => rw [exec_dec16_of_idle hbusy, beJoin_two]; rfl
  case dec32 => rw [exec_dec32_of_idle hbusy, beJoin_four]; rfl

end Sys2Proof.Proofs
end

section
/-! SUPPORT and RESULTS. The framed transport of 43_transport.md: the two checks at acceptance (O31, O32), a
failed stream operation (O37), the request an attempt builds (O38, O39), and the verdict on the answer to a
write and to a read (O41, O44). -/

namespace Sys2Proof.Machine

/-! ### The checks at acceptance -/

theorem exec_xwr_of_idle {s : State} (kc : Byte) {n : BitVec 5} (hbusy : s.status.busy = false)
    (hn : n.toNat ≤ 16) : exec (.xwr kc n) s = .next (acceptTransport .xwr kc n (accept s)) :=
  (if_pos (decide_eq_true hn)).trans (congrArg Host.Outcome.next (issue_of_idle _ hbusy))

theorem exec_xrd_of_idle {s : State} (kc : Byte) {n : BitVec 5} (hbusy : s.status.busy = false)
    (hn : n.toNat ≤ 16) : exec (.xrd kc n) s = .next (acceptTransport .xrd kc n (accept s)) :=
  (if_pos (decide_eq_true hn)).trans (congrArg Host.Outcome.next (issue_of_idle _ hbusy))

/-- A check that fails leaves what the acceptance has latched, and the completion. -/
theorem raiseErr_latch_accept (kind : Op) (kc : Byte) (n : BitVec 5) (e : Code) (info : Word)
    (s : State) :
    raiseErr e info (latch kind kc n (accept s)) = endedAtAcceptance kind kc n e info s := by
  have hrvalid : (s.status.rvalid && kind != .xrd) = if kind = .xrd then false else s.status.rvalid := by
    cases kind
    · exact Bool.and_true _
    · exact Bool.and_false _
  rw [endedAtAcceptance, ← hrvalid]
  rfl

theorem firstBadWidth_eq_some {s : State} {n i : Nat} (hi : i < n) (hbelow : WidthsLegal s i)
    (hbad : ¬ (fwidAt s i = 1 ∨ fwidAt s i = 2 ∨ fwidAt s i = 4)) :
    firstBadWidth s n = some i := by
  refine List.find?_range_eq_some.mpr ⟨?bad, List.mem_range.mpr hi, fun j hj => ?legal⟩
  case bad => simpa [legalWidth, not_or, and_assoc] using hbad
  case legal => simpa [legalWidth, or_assoc] using hbelow j hj

/-- 43_transport.md R101: the index stands above the width. -/
theorem widthInfo_eq_ofNat (s : State) {i : Nat} (hi : i < 32) :
    widthInfo s i = BitVec.ofNat 32 (i * 256 + (fwidAt s i).toNat) := by
  apply BitVec.eq_of_toNat_eq
  simp only [widthInfo, BitVec.toNat_setWidth, toNat_append_eq_add, BitVec.toNat_ofNat]
  omega

theorem acceptTransport_of_badWidth {s : State} (kind : Op) (kc : Byte) {n : BitVec 5} {i : Nat}
    (hi : firstBadWidth s n.toNat = some i) :
    acceptTransport kind kc n (accept s) =
      endedAtAcceptance kind kc n .errWidth (widthInfo s i) s := by
  obtain ⟨j, hj, h⟩ | ⟨hnone, -⟩ | ⟨hnone, -⟩ := acceptTransport_cases kind kc n (accept s)
  · obtain rfl : i = j := Option.some.inj (hi.symm.trans hj)
    exact h.trans (raiseErr_latch_accept ..)
  · cases hi.symm.trans hnone
  · cases hi.symm.trans hnone

theorem acceptTransport_of_cfgErr {s : State} (kind : Op) (kc : Byte) {n : BitVec 5} {info : Word}
    (hw : WidthsLegal s n.toNat) (hport : s.port.portcfg = .cfgErr info) :
    acceptTransport kind kc n (accept s) = endedAtAcceptance kind kc n .errConfig info s := by
  have hnone : firstBadWidth s n.toNat = none := (firstBadWidth_eq_none_iff s n.toNat).mpr hw
  obtain ⟨i, hi, -⟩ | ⟨-, info', hp, h⟩ | ⟨-, hready, -⟩ := acceptTransport_cases kind kc n (accept s)
  · cases hnone.symm.trans hi
  · obtain rfl : info = info' := PortCfg.cfgErr.inj (hport.symm.trans hp)
    exact h.trans (raiseErr_latch_accept ..)
  · cases hport.symm.trans hready

/-! ### The answer to the outstanding operation -/

theorem onAnswer_of_ack {s : State} (a : PortAnswer) (h : s.sq.phase = .ack) :
    onAnswer a s = .next (onAck a s) := by rw [onAnswer, h]

theorem onAnswer_of_rxc1 {s : State} (a : PortAnswer) (h : s.sq.phase = .rxc1) :
    onAnswer a s = .next (readOrZero crcLowByte a s) := by rw [onAnswer, h]

/-! ### A failed stream operation -/

/-- The state after the outstanding operation failed, before the retry policy acts on the failure
(20_memory.md R49 to R51). -/
def failedOperation (info : Word) (keep : List Bool) (sent : Nat) (s : State) : State :=
  match s.sq.phase with
  | .flush => (streamFlush (.ioErr info keep sent) s).2
  | .tx => (streamWrite (request s) (.ioErr info keep sent) s).2
  | _ => (streamRead1 (.ioErr info keep sent) s).2

theorem failedOperation_of_flush {s : State} (info : Word) (keep : List Bool) (sent : Nat)
    (h : s.sq.phase = .flush) :
    failedOperation info keep sent s = (streamFlush (.ioErr info keep sent) s).2 := by
  rw [failedOperation, h]

theorem failedOperation_of_tx {s : State} (info : Word) (keep : List Bool) (sent : Nat)
    (h : s.sq.phase = .tx) :
    failedOperation info keep sent s = (streamWrite (request s) (.ioErr info keep sent) s).2 := by
  rw [failedOperation, h]

theorem failedOperation_of_read {s : State} (info : Word) (keep : List Bool) (sent : Nat)
    (hflush : s.sq.phase ≠ .flush) (htx : s.sq.phase ≠ .tx) :
    failedOperation info keep sent s = (streamRead1 (.ioErr info keep sent) s).2 := by
  unfold failedOperation
  cases h : s.sq.phase with
  | flush => exact absurd h hflush
  | tx => exact absurd h htx
  | _ => rfl

/-- The operation touches the port and its record only. -/
theorem failedOperation_frame (info : Word) (keep : List Bool) (sent : Nat) (s : State) :
    failedOperation info keep sent s =
      { s with
        port := (failedOperation info keep sent s).port
        txlog := (failedOperation info keep sent s).txlog } := by
  unfold failedOperation
  cases s.sq.phase <;> rfl

/-- 43_transport.md R105: in every phase the sequencer takes the failure to `ioError`. -/
theorem onAnswer_ioErr {s : State} (info : Word) (keep : List Bool) (sent : Nat)
    (hphase : s.sq.phase ≠ .idle) :
    onAnswer (.ioErr info keep sent) s =
      .next (ioError info (failedOperation info keep sent s)) := by
  unfold onAnswer failedOperation
  cases h : s.sq.phase with
  | idle => exact absurd h hphase
  | _ => rfl

/-! ### Bytes appended to the output buffer -/

/-- The output buffer of `t` is that of `s` with `bs` at its end (43_transport.md R108). -/
structure TxAppended (s : State) (bs : List Byte) (t : State) : Prop where
  length : t.txlen.toNat = s.txlen.toNat + bs.length
  valid : request t = request s ++ bs
  above : ∀ q, t.txlen.toNat ≤ q → txbufAt t q = txbufAt s q

theorem TxAppended.trans {s t u : State} {bs cs : List Byte} (h : TxAppended s bs t)
    (k : TxAppended t cs u) : TxAppended s (bs ++ cs) u where
  length := by rw [k.length, h.length, List.length_append, Nat.add_assoc]
  valid := by rw [k.valid, h.valid, List.append_assoc]
  above q hq := by
    have hlen := k.length
    rw [k.above q hq, h.above q (by omega)]

theorem TxAppended.refl (s : State) : TxAppended s [] s :=
  ⟨rfl, (List.append_nil _).symm, fun _ _ => rfl⟩

theorem txAppended_appendTx {s : State} (b : Byte) (h : s.txlen.toNat < 68) :
    TxAppended s [b] (appendTx b s) := by
  have hlen : (appendTx b s).txlen.toNat = s.txlen.toNat + 1 :=
    BitVec.toNat_add_of_lt (by simp; omega)
  refine ⟨hlen, ?valid, fun q hq => ?above⟩
  case valid =>
    rw [request, hlen, appendTx_txbuf, Vector.toList_setIfInBounds,
      List.take_succ_eq_append_getElem (by simpa using h), List.getElem_set_self,
      List.take_set_of_le (Nat.le_refl _), request]
  case above =>
    rw [txbufAt, appendTx_txbuf, Vector.getElem?_setIfInBounds_ne (by omega), txbufAt]

theorem TxAppended.appendTx {s t : State} {bs : List Byte} (h : TxAppended s bs t) (b : Byte)
    (hroom : s.txlen.toNat + bs.length < 68) : TxAppended s (bs ++ [b]) (appendTx b t) :=
  h.trans (txAppended_appendTx b (h.length.trans_lt hroom))

theorem txAppended_emitTx {s : State} (b : Byte) (h : s.txlen.toNat < 68) :
    TxAppended s [b] (emitTx b s) :=
  have happ := txAppended_appendTx b h
  ⟨happ.length, happ.valid, happ.above⟩

theorem txAppended_emitAll {s : State} (bs : List Byte) (h : s.txlen.toNat + bs.length ≤ 68) :
    TxAppended s bs (emitAll bs s) := by
  induction bs generalizing s with
  | nil => exact .refl s
  | cons b bs ih =>
    rw [List.length_cons] at h
    have hfirst : TxAppended s [b] (emitTx b s) := txAppended_emitTx b (by omega)
    have hlen : (emitTx b s).txlen.toNat = s.txlen.toNat + 1 := hfirst.length
    exact hfirst.trans (ih (by omega))

/-- 43_transport.md R108: the checksum of the bytes emitted goes behind them, unfolded. -/
theorem txAppended_emitAll_checksum {s : State} (bs : List Byte)
    (h : s.txlen.toNat + bs.length + 2 ≤ 68) :
    TxAppended s
      (bs ++ [(crcBytes s.crc bs).extractLsb' 8 8, (crcBytes s.crc bs).extractLsb' 0 8])
      (appendTx ((emitAll bs s).crc.extractLsb' 0 8)
        (appendTx ((emitAll bs s).crc.extractLsb' 8 8) (emitAll bs s))) := by
  have hfold : (emitAll bs s).crc = crcBytes s.crc bs := by rw [emitAll_frame]
  have hbytes : TxAppended s bs (emitAll bs s) := txAppended_emitAll bs (by omega)
  have hhigh := hbytes.appendTx ((crcBytes s.crc bs).extractLsb' 8 8) (by omega)
  have hlow := hhigh.appendTx ((crcBytes s.crc bs).extractLsb' 0 8)
    (by rw [List.length_append, List.length_singleton]; omega)
  rw [hfold]
  rwa [List.append_assoc] at hlow

/-! ### The requests -/

/-- The state after the flush answered OK, on which the request is built (43_transport.md R104). -/
def flushed (s : State) : State := (streamFlush .ok s).2

theorem onAnswer_flush_ok {s : State} (h : s.sq.phase = .flush) :
    onAnswer .ok s = .next (setPhase .tx (buildRequest (flushed s))) := by
  rw [onAnswer, h]
  rfl

theorem request_of_txlen_zero {s : State} (h : s.txlen = 0) : request s = [] := by
  rw [request, h]
  rfl

theorem length_writeBody {s : State} (kc : Byte) {n : Nat} (hw : WidthsLegal s n) :
    (writeBody s kc n).length = 2 + widthSum s n := by
  simp only [writeBody, List.length_cons, length_payload hw]
  omega

theorem length_writeRequest {s : State} (kc : Byte) {n : Nat} (hw : WidthsLegal s n) :
    (writeRequest s kc n).length = 4 + widthSum s n := by
  simp only [writeRequest, List.length_append, length_writeBody kc hw, List.length_cons, List.length_nil]
  omega

/-- 43_transport.md R108: from an empty output buffer and the seed, the build appends the write request. -/
theorem txAppended_xwrBuild {s : State} (htx : s.txlen = 0) (hcrc : s.crc = 0x0000)
    (hn : s.sq.n.toNat ≤ 16) (hw : WidthsLegal s s.sq.n.toNat) :
    TxAppended s (writeRequest s s.sq.kc s.sq.n.toNat) (xwrBuild s) := by
  have hempty : s.txlen.toNat = 0 := congrArg BitVec.toNat htx
  have hlen : (writeBody s s.sq.kc s.sq.n.toNat).length = 2 + widthSum s s.sq.n.toNat :=
    length_writeBody s.sq.kc hw
  have hsum : widthSum s s.sq.n.toNat ≤ 4 * s.sq.n.toNat := widthSum_le hw
  have happ := txAppended_emitAll_checksum (s := s) (writeBody s s.sq.kc s.sq.n.toNat) (by omega)
  rwa [hcrc] at happ

/-- 43_transport.md R113: the build writes the read request from the start of the output buffer. -/
theorem txAppended_xrdBuild (s : State) :
    TxAppended { s with txlen := 0 } (readRequest s s.sq.kc) (xrdBuild s) :=
  have happ := ((TxAppended.refl { s with txlen := 0 }).appendTx s.cfg.addr (by simp)).appendTx
    s.sq.kc (by simp)
  ⟨happ.length, happ.valid, happ.above⟩

/-! ### The answer to a read -/

theorem streamRead1_ok_of_cons {s : State} {b : Byte} {rest : List Byte} (h : s.port.rxq = b :: rest) :
    streamRead1 .ok s =
      (.byte b, recordAnswer (.readByte b) { s with port := { s.port with rxq := rest } }) := by
  simp [streamRead1, h]

theorem streamRead1_ok_of_nil {s : State} (h : s.port.rxq = []) :
    streamRead1 .ok s = (.timeout, recordAnswer .readTimeout s) := by
  simp [streamRead1, h]

/-- 43_transport.md R110: the information of a NACK is 0x100 plus the byte. -/
theorem nackInfo_eq_ofNat (b : Byte) :
    0x00000100 ||| b.setWidth 32 = BitVec.ofNat 32 (0x100 + b.toNat) := by
  have happ : (1#24) ++ b = 0x00000100 ||| b.setWidth 32 := append_eq_or_setWidth 1#24 b
  rw [← happ]
  apply BitVec.eq_of_toNat_eq
  rw [toNat_append_eq_add, BitVec.toNat_ofNat]
  simp only [BitVec.toNat_ofNat]
  omega

/-! ### The verdict of a read attempt -/

/-- The state when the last checksum byte `lo` has been read, `late` saying that the read timed out: the
state the verdict is on (43_transport.md R116). -/
def checksumRead (lo : Byte) (late : Bool) (s : State) : State :=
  { s with
    port := { s.port with rxq := s.port.rxq.tail }
    txlog := { s.txlog with
      answers := s.txlog.answers ++ [if late then .readTimeout else .readByte lo] }
    sq := { s.sq with rxcrc := s.sq.rxcrc.extractLsb' 8 8 ++ lo, tof := s.sq.tof || late } }

theorem onAnswer_rxc1_of_cons {s : State} {lo : Byte} (hphase : s.sq.phase = .rxc1)
    (hrxq : s.port.rxq = lo :: s.port.rxq.tail) :
    onAnswer .ok s = .next (verdict (checksumRead lo false s)) := by
  rw [onAnswer_of_rxc1 .ok hphase, readOrZero, streamRead1_ok_of_cons hrxq, checksumRead, Bool.or_false]
  rfl

theorem onAnswer_rxc1_of_nil {s : State} (hphase : s.sq.phase = .rxc1) (hrxq : s.port.rxq = []) :
    onAnswer .ok s = .next (verdict (checksumRead 0x00 true s)) := by
  have htail : s.port.rxq.tail = s.port.rxq := by rw [hrxq, List.tail_nil]
  rw [onAnswer_of_rxc1 .ok hphase, readOrZero, streamRead1_ok_of_nil hrxq, checksumRead, htail,
    Bool.or_true]
  rfl

/-- 43_transport.md R117. -/
theorem verified_eq_true_iff (s : State) :
    verified s = true ↔
      s.crc = s.sq.rxcrc ∧ ¬ (s.build.timeoutPolicy = .failAttempt ∧ s.sq.tof = true) := by
  simp [verified, imp_iff_not_or]

/-- 43_transport.md R118: the results are the staged values below `n`, and stay above. -/
theorem getD_copyBelow {n : Nat} (hn : n ≤ 16) (src dst : Vector Word 16) (i : Nat) :
    ((copyBelow n src dst)[i]?).getD 0 = if i < n then (src[i]?).getD 0 else (dst[i]?).getD 0 := by
  by_cases hi : i < 16
  · rw [copyBelow_getElem? n src dst i hi, apply_ite (Option.getD · 0)]
  · rw [if_neg (by omega), Vector.getElem?_eq_none (by omega), Vector.getElem?_eq_none (by omega)]

end Sys2Proof.Machine

namespace Sys2Proof.Proofs

open Sys2Proof.Machine

/-- Settles O31: the width check finds `i`, as every width below it is legal. -/
theorem widthCheckRejectsFirstBadWidth : Obligations.WidthCheckRejectsFirstBadWidth := by
  intro s kc n i hbusy hn hi hbelow hbad
  have hfirst : firstBadWidth s n.toNat = some i := firstBadWidth_eq_some hi hbelow hbad
  rw [← widthInfo_eq_ofNat s (by omega), exec_xwr_of_idle kc hbusy hn, exec_xrd_of_idle kc hbusy hn,
    acceptTransport_of_badWidth .xwr kc hfirst, acceptTransport_of_badWidth .xrd kc hfirst]
  exact ⟨rfl, rfl⟩

/-- Settles O32: the width check passes, and the setup check is the next. -/
theorem setupCheckReportsPortError : Obligations.SetupCheckReportsPortError := by
  intro s kc n info hbusy hn hw hport
  rw [exec_xwr_of_idle kc hbusy hn, exec_xrd_of_idle kc hbusy hn,
    acceptTransport_of_cfgErr .xwr kc hw hport, acceptTransport_of_cfgErr .xrd kc hw hport]
  exact ⟨rfl, rfl⟩

/-- Settles O37: every phase takes the failure to `ioError`, which follows IORETRY, and the failed operation
leaves the registers and the sequencer as they were. -/
theorem streamErrorFollowsRetryPolicy : Obligations.StreamErrorFollowsRetryPolicy := by
  intro s info keep sent hphase
  have hanswer := onAnswer_ioErr info keep sent hphase
  have hframe := failedOperation_frame info keep sent s
  refine ⟨failedOperation info keep sent s, fun h => ?flush, fun h => ?tx, fun hflush htx => ?read,
    fun hretry => ?ends, fun hretry => ?again⟩
  case flush => rw [failedOperation_of_flush info keep sent h]; exact ⟨rfl, rfl⟩
  case tx => rw [failedOperation_of_tx info keep sent h]; exact ⟨rfl, rfl⟩
  case read => rw [failedOperation_of_read info keep sent hflush htx]; exact ⟨rfl, rfl⟩
  case ends =>
    rw [hanswer, hframe, ioError, if_neg (by simp [hretry])]
    rfl
  case again =>
    rw [hanswer, hframe, ioError, if_pos hretry]
    rfl

/-- Settles O38: the flush leaves the output buffer empty and CRC the seed, and the build appends the
request. -/
theorem writeRequestIsBuilt : Obligations.WriteRequestIsBuilt := by
  intro s hphase hop htx hcrc hn hw
  have hbuilt : TxAppended (flushed s) (writeRequest s s.sq.kc s.sq.n.toNat) (xwrBuild (flushed s)) :=
    txAppended_xwrBuild (s := flushed s) htx hcrc hn hw
  have hframe : xwrBuild (flushed s) = { flushed s with
      crc := crcBytes 0x0000 (writeBody s s.sq.kc s.sq.n.toNat)
      txbuf := (xwrBuild (flushed s)).txbuf
      txlen := (xwrBuild (flushed s)).txlen } := hcrc ▸ xwrBuild_frame (flushed s)
  have hempty : (flushed s).txlen.toNat = 0 := congrArg BitVec.toNat htx
  have hlen : (xwrBuild (flushed s)).txlen.toNat = 4 + widthSum s s.sq.n.toNat := by
    rw [hbuilt.length, length_writeRequest s.sq.kc hw, hempty, Nat.zero_add]
  have hsum : widthSum s s.sq.n.toNat ≤ 4 * s.sq.n.toNat := widthSum_le hw
  refine ⟨setPhase .tx (xwrBuild (flushed s)), ?next, ?frame, ?request, ?crc, hlen,
    hlen.trans_le (by omega), hbuilt.above⟩
  case next => rw [onAnswer_flush_ok hphase, buildRequest_of_xwr (s := flushed s) hop]
  case frame => rw [hframe]; rfl
  case request =>
    calc request (xwrBuild (flushed s))
        = request (flushed s) ++ writeRequest s s.sq.kc s.sq.n.toNat := hbuilt.valid
      _ = writeRequest s s.sq.kc s.sq.n.toNat := by
        rw [request_of_txlen_zero (s := flushed s) htx, List.nil_append]
  case crc => rw [hframe]; rfl

/-- Settles O39: the build writes the two bytes at the start of the output buffer, and CRC follows the
scope. -/
theorem readRequestIsBuilt : Obligations.ReadRequestIsBuilt := by
  intro s hphase hop
  have hbuilt := txAppended_xrdBuild (flushed s)
  refine ⟨setPhase .tx (xrdBuild (flushed s)), ?next, rfl, ?request, hbuilt.above⟩
  case next => rw [onAnswer_flush_ok hphase, buildRequest_of_xrd (s := flushed s) hop]
  case request =>
    calc request (xrdBuild (flushed s))
        = request { flushed s with txlen := 0 } ++ readRequest s s.sq.kc := hbuilt.valid
      _ = readRequest s s.sq.kc := by
        rw [request_of_txlen_zero (s := { flushed s with txlen := 0 }) rfl, List.nil_append]

/-- Settles O41: the read takes the head of the input buffer or times out, and 0xFF alone is an ack. -/
theorem ackByteDecidesWriteAttempt : Obligations.AckByteDecidesWriteAttempt := by
  intro s hphase
  rw [onAnswer_of_ack .ok hphase]
  refine ⟨fun rest hrxq => ?ack, fun b rest hrxq hb => ?nack, fun hrxq => ?timeout⟩
  case ack =>
    rw [onAck, streamRead1_ok_of_cons hrxq]
    rfl
  case nack =>
    rw [onAck, streamRead1_ok_of_cons hrxq, ← nackInfo_eq_ofNat]
    exact congrArg Host.Outcome.next (if_neg hb)
  case timeout =>
    rw [onAck, streamRead1_ok_of_nil hrxq]
    rfl

/-- Settles O44: the verdict is on the state with the whole received checksum; its two outcomes are R117's
condition and its negation. -/
theorem verdictWritesResultsTogether : Obligations.VerdictWritesResultsTogether := by
  intro s lo late hphase hn hread
  have hanswer : onAnswer .ok s = .next (verdict (checksumRead lo late s)) := by
    obtain ⟨hrxq, rfl, rfl⟩ | ⟨hrxq, rfl⟩ := hread
    · exact onAnswer_rxc1_of_nil hphase hrxq
    · exact onAnswer_rxc1_of_cons hphase hrxq
  have hverified := verified_eq_true_iff (checksumRead lo late s)
  refine ⟨_, (checksumRead lo late s).txlog, hanswer, rfl, fun hok => ?results, fun hfail => ?failed⟩
  case results =>
    have hres : ∀ i, resAt (verdict (checksumRead lo late s)) i =
        if i < s.sq.n.toNat then stgAt s i else resAt s i := by
      intro i
      rw [verdict, if_pos (hverified.mpr hok)]
      exact getD_copyBelow hn s.sq.stg s.res i
    refine ⟨?_, fun i hi => (hres i).trans (if_pos hi), fun i hi => (hres i).trans (if_neg (by omega))⟩
    rw [verdict, if_pos (hverified.mpr hok)]
    rfl
  case failed =>
    rw [verdict, if_neg (mt hverified.mp hfail)]
    rfl

end Sys2Proof.Proofs
end

section
/-! SUPPORT and RESULTS. The decoder as the inverse of the encoder: what it reads has legal fields and is
the command of the word (O1, O2, O3). -/

namespace Sys2Proof.Machine

/-! ### A word put together from its fields -/

/-- 30_encoding.md R60: the five fields are the whole word. -/
theorem cmdWord_of_fields {w : Word} (hrsv : fieldRsv w = 0) :
    cmdWord (fieldOpc w) (fieldKc w) (fieldN w) (fieldImm w) = w := by
  have hzero : (0#3 : BitVec 3) = w.extractLsb' 13 3 := hrsv.symm
  unfold cmdWord fieldOpc fieldKc fieldN fieldImm
  rw [hzero]
  iterate 4 rw [BitVec.extractLsb'_append_extractLsb'_eq_extractLsb' (by rfl)]
  exact BitVec.extractLsb'_eq_self

/-! ### What the decoder answers -/

theorem decodeBare_eq_ok {w : Word} {i j : Instr} (h : decodeBare w j = .ok i) :
    i = j ∧ fieldKc w = 0 ∧ fieldN w = 0 ∧ fieldImm w = 0 := by
  unfold decodeBare at h
  split_ifs at h with hzero
  exact ⟨(Except.ok.inj h).symm, hzero⟩

theorem decodeFramed_eq_ok {w : Word} {i : Instr} {mk : Byte → BitVec 5 → Instr}
    (h : decodeFramed w mk = .ok i) :
    i = mk (fieldKc w) (fieldN w) ∧ fieldImm w = 0 ∧ (fieldN w).toNat ≤ Config.maxFields := by
  unfold decodeFramed at h
  split_ifs at h with himm hn
  exact ⟨(Except.ok.inj h).symm, not_ne_iff.mp himm, hn⟩

theorem rsv_of_decode {w : Word} {i : Instr} (h : decode w = .ok i) : fieldRsv w = 0 := by
  by_contra hrsv
  rw [decode, if_pos hrsv] at h
  cases h

/-- The command of a bare opcode has legal fields, and its word holds the opcode alone. -/
theorem decode_of_bareOpcode_encode {w : Word} (hrsv : fieldRsv w = 0)
    (hopc : fieldOpc w ∈ bareOpcodes) :
    ∃ j, decode w = decodeBare w j ∧ j.wf = true ∧ encode j = cmdWord (fieldOpc w) 0 0 0 := by
  simp only [bareOpcodes, List.mem_cons, List.not_mem_nil, or_false] at hopc
  obtain h | h | h | h | h | h | h := hopc <;>
    exact ⟨_, by rw [decode, hrsv, h]; rfl, rfl, by rw [h]; rfl⟩

/-- The commands of a framed opcode have legal fields up to 16, and their words hold the opcode, the code
and the count. -/
theorem decode_of_framedOpcode_encode {w : Word} (hrsv : fieldRsv w = 0)
    (hopc : fieldOpc w ∈ framedOpcodes) :
    ∃ mk, decode w = decodeFramed w mk
      ∧ ∀ kc n, (mk kc n).wf = decide (n.toNat ≤ Config.maxFields)
        ∧ encode (mk kc n) = cmdWord (fieldOpc w) kc n 0 := by
  simp only [framedOpcodes, List.mem_cons, List.not_mem_nil, or_false] at hopc
  obtain h | h := hopc <;>
    exact ⟨_, by rw [decode, hrsv, h]; rfl, fun _ _ => ⟨rfl, by rw [h]; rfl⟩⟩

/-- 30_encoding.md R67: a word the decoder reads is the word of the command it reads, whose fields are
legal. -/
theorem wf_and_encode_of_decode {w : Word} {i : Instr} (hd : decode w = .ok i) :
    i.wf = true ∧ encode i = w := by
  have hrsv := rsv_of_decode hd
  rw [← cmdWord_of_fields hrsv]
  by_cases hbare : fieldOpc w ∈ bareOpcodes
  · obtain ⟨j, hj, hwf, hword⟩ := decode_of_bareOpcode_encode hrsv hbare
    obtain ⟨rfl, hkc, hn, himm⟩ := decodeBare_eq_ok (hj.symm.trans hd)
    rw [hkc, hn, himm]
    exact ⟨hwf, hword⟩
  by_cases hframed : fieldOpc w ∈ framedOpcodes
  · obtain ⟨mk, hmk, hrow⟩ := decode_of_framedOpcode_encode hrsv hframed
    obtain ⟨rfl, himm, hn⟩ := decodeFramed_eq_ok (hmk.symm.trans hd)
    obtain ⟨hwf, hword⟩ := hrow (fieldKc w) (fieldN w)
    rw [himm]
    exact ⟨hwf.trans (decide_eq_true hn), hword⟩
  by_cases hfeed : fieldOpc w = 0x02
  · rw [decode_of_crcFeed hrsv hfeed] at hd
    split_ifs at hd with hzero
    obtain rfl := Except.ok.inj hd
    rw [hfeed, hzero.1, hzero.2]
    exact ⟨rfl, rfl⟩
  by_cases hfeedb : fieldOpc w = 0x03
  · rw [decode_of_crcFeedb hrsv hfeedb] at hd
    split_ifs at hd with hzero hlanes
    obtain rfl := Except.ok.inj hd
    rw [hfeedb, hzero.1, hzero.2]
    exact ⟨decide_eq_true hlanes, rfl⟩
  rw [decode_of_reservedOpcode hrsv (not_mem_opcodes hbare hframed hfeed hfeedb)] at hd
  cases hd

/-- No two commands with legal fields have one word. -/
theorem encode_injective_of_wf {i j : Instr} (hi : i.wf = true) (hj : j.wf = true)
    (h : encode j = encode i) : j = i :=
  Except.ok.inj ((decode_encode hj).symm.trans ((congrArg decode h).trans (decode_encode hi)))

end Sys2Proof.Machine

namespace Sys2Proof.Proofs

open Sys2Proof.Machine

/-- Settles O2: the fields of the word are the operands, which pass the decoder's checks. -/
theorem decodeEncodeRoundTrip : Obligations.DecodeEncodeRoundTrip := fun _ hwf => decode_encode hwf

/-- Settles O3: the decoder answers a command, which is the only one of the word, or rejects the word, which
R66 then lists and no command has. -/
theorem everyWordIsOneCommandOrIllegal : Obligations.EveryWordIsOneCommandOrIllegal := by
  intro w
  cases hd : decode w with
  | ok i =>
    obtain ⟨hwf, rfl⟩ := wf_and_encode_of_decode hd
    refine .inl ⟨fun hill => ?legal, i, hwf, rfl, rfl, fun j hj hword => encode_injective_of_wf hwf hj hword⟩
    case legal =>
      obtain ⟨e, he⟩ := (decode_error_iff_illegal _).mpr hill
      cases he.symm.trans hd
  | error e =>
    refine .inr ⟨(decode_error_iff_illegal w).mp ⟨e, hd⟩, ⟨e, rfl⟩, fun j hj hword => ?none⟩
    case none =>
      rw [← hword, decode_encode hj] at hd
      cases hd

/-- Settles O1: the decoder on the twelve words. -/
theorem decodesWrittenWords : Obligations.DecodesWrittenWords := by
  unfold Obligations.DecodesWrittenWords
  decide

end Sys2Proof.Proofs
end

section
/-! SUPPORT and RESULTS. The checksum fold of 41_checksum.md section 1 as a linear map: its table form and
its laws (O8, O9). -/

namespace Sys2Proof.Machine

/-! ### The eight shifts -/

/-- The eight shift steps of a fold, on the state that the byte has gone into (41_checksum.md R80). -/
def crcShifts (c : Half) : Half := Nat.repeat crcShift 8 c

theorem crcStep_eq_crcShifts (c : Half) (b : Byte) :
    crcStep c b = crcShifts (c ^^^ (b.setWidth 16 <<< 8)) := rfl

theorem crcShift_xor (c d : Half) : crcShift (c ^^^ d) = crcShift c ^^^ crcShift d := by
  unfold crcShift
  rw [BitVec.msb_xor, BitVec.shiftLeft_xor_distrib]
  cases c.msb <;> cases d.msb
  · rfl
  · exact BitVec.xor_assoc ..
  · exact (BitVec.xor_assoc ..).trans ((congrArg _ (BitVec.xor_comm ..)).trans (BitVec.xor_assoc ..).symm)
  · simp only [bne_self_eq_false, Bool.false_eq_true, if_false, if_true]
    calc (c <<< 1) ^^^ (d <<< 1)
        = (c <<< 1) ^^^ (d <<< 1) ^^^ (Config.crcPoly ^^^ Config.crcPoly) := by simp
      _ = _ := by ac_rfl

theorem eq_zero_of_crcShift_eq_zero {c : Half} (h : crcShift c = 0) : c = 0 := by
  have hbit (i : Nat) : (crcShift c).getLsbD i = false := by rw [h]; exact BitVec.getLsbD_zero
  have hmsb : c.msb = false := by
    by_contra hmsb
    have h0 := hbit 0
    simp [crcShift, eq_true_of_ne_false hmsb, Config.crcPoly] at h0
  have hlow (i : Nat) (hi : i < 15) : c.getLsbD i = false := by
    have hnext := hbit (i + 1)
    rw [BitVec.getLsbD_eq_getElem (by omega)]
    simpa [crcShift, hmsb, show i + 1 < 16 by omega] using hnext
  apply BitVec.eq_of_getLsbD_eq
  intro i hi
  refine Eq.trans ?_ BitVec.getLsbD_zero.symm
  obtain hi | rfl : i < 15 ∨ i = 15 := by omega
  · exact hlow i hi
  · exact (BitVec.msb_eq_getLsbD_last c).symm.trans hmsb

theorem repeat_crcShift_xor (n : Nat) (c d : Half) :
    Nat.repeat crcShift n (c ^^^ d) = Nat.repeat crcShift n c ^^^ Nat.repeat crcShift n d := by
  induction n with
  | zero => rfl
  | succ n ih => simp only [Nat.repeat, ih, crcShift_xor]

theorem crcShifts_xor (c d : Half) : crcShifts (c ^^^ d) = crcShifts c ^^^ crcShifts d :=
  repeat_crcShift_xor 8 c d

theorem eq_zero_of_repeat_crcShift (n : Nat) {c : Half} (h : Nat.repeat crcShift n c = 0) : c = 0 := by
  induction n with
  | zero => exact h
  | succ n ih => exact ih (eq_zero_of_crcShift_eq_zero h)

/-- The bit 0 of the polynomial is 1, so no state but 0 is shifted to 0. -/
theorem eq_zero_of_crcShifts_eq_zero {c : Half} (h : crcShifts c = 0) : c = 0 :=
  eq_zero_of_repeat_crcShift 8 h

theorem crcShifts_injective {c d : Half} (h : crcShifts c = crcShifts d) : c = d := by
  have hxor : crcShifts (c ^^^ d) = 0 := by
    rw [crcShifts_xor, h]
    exact BitVec.xor_self
  exact BitVec.xor_eq_zero_iff.mp (eq_zero_of_crcShifts_eq_zero hxor)

/-! ### The two halves of a state -/

theorem repeat_crcShift_low (x : Byte) {n : Nat} (hn : n ≤ 8) :
    Nat.repeat crcShift n (x.setWidth 16) = x.setWidth 16 <<< n := by
  induction n with
  | zero => simp [Nat.repeat]
  | succ n ih =>
    have hmsb : (x.setWidth 16 <<< n).msb = false := by
      simp [BitVec.msb_eq_getLsbD_last, show ¬ 15 < n by omega, BitVec.getLsbD_of_ge x (15 - n) (by omega)]
    rw [Nat.repeat, ih (by omega), crcShift, hmsb, BitVec.shiftLeft_add]
    rfl

/-- The low half of a state meets no XOR with the polynomial. -/
theorem crcShifts_low (x : Byte) : crcShifts (x.setWidth 16) = x.setWidth 16 <<< 8 :=
  repeat_crcShift_low x (Nat.le_refl 8)

theorem half_eq_high_xor_low (c : Half) :
    c = ((c.extractLsb' 8 8).setWidth 16 <<< 8) ^^^ (c.extractLsb' 0 8).setWidth 16 := by
  ext i hi
  by_cases hlow : i < 8
  · simp [hlow, hi]
  · simp [hlow, hi, show 8 + (i - 8) = i by omega]
    omega

theorem low_shiftLeft (c : Half) : (c.extractLsb' 0 8).setWidth 16 <<< 8 = c <<< 8 := by
  ext i hi
  simp [show i - 8 < 8 by omega, BitVec.getLsbD_eq_getElem (show i - 8 < 16 by omega)]

/-- 41_checksum.md R80: the table form, the table being the fold from 0x0000. -/
theorem crcStep_table (c : Half) (b : Byte) :
    crcStep c b = (c <<< 8) ^^^ crcStep 0x0000 (c.extractLsb' 8 8 ^^^ b) := by
  have hbyte : ((c.extractLsb' 8 8 ^^^ b).setWidth 16 <<< 8 : Half) =
      ((c.extractLsb' 8 8).setWidth 16 <<< 8) ^^^ (b.setWidth 16 <<< 8) := by
    rw [BitVec.setWidth_xor, BitVec.shiftLeft_xor_distrib]
  have hsplit : c ^^^ (b.setWidth 16 <<< 8) =
      (c.extractLsb' 0 8).setWidth 16
        ^^^ ((0x0000 : Half) ^^^ ((c.extractLsb' 8 8 ^^^ b).setWidth 16 <<< 8)) := by
    conv_lhs => rw [half_eq_high_xor_low c]
    rw [hbyte]
    rw [show (0x0000 : Half) = 0#16 from rfl, BitVec.zero_xor]
    ac_rfl
  rw [crcStep_eq_crcShifts, hsplit, crcShifts_xor, crcShifts_low, low_shiftLeft, crcStep_eq_crcShifts]

/-! ### The fold of a list -/

theorem crcStep_zero_zero : crcStep 0x0000 0x00 = 0x0000 := by decide

theorem crcStep_of_zero (c : Half) : crcStep c 0x00 = crcShifts c := by
  rw [crcStep_eq_crcShifts]
  exact congrArg crcShifts BitVec.xor_zero

theorem crcStep_xor (c d : Half) (b : Byte) :
    crcStep (c ^^^ d) b = crcStep c 0x00 ^^^ crcStep d b := by
  rw [crcStep_of_zero, crcStep_eq_crcShifts, crcStep_eq_crcShifts, BitVec.xor_assoc, crcShifts_xor]

theorem crcBytes_append (c : Half) (xs ys : List Byte) :
    crcBytes c (xs ++ ys) = crcBytes (crcBytes c xs) ys := List.foldl_append

theorem crcBytes_xor (c d : Half) (xs : List Byte) :
    crcBytes (c ^^^ d) xs = crcBytes c (List.replicate xs.length 0x00) ^^^ crcBytes d xs := by
  induction xs generalizing c d with
  | nil => rfl
  | cons x xs ih =>
    calc crcBytes (c ^^^ d) (x :: xs) = crcBytes (crcStep c 0x00 ^^^ crcStep d x) xs :=
          congrArg (crcBytes · xs) (crcStep_xor c d x)
      _ = _ := ih (crcStep c 0x00) (crcStep d x)

theorem crcBytes_replicate_zero (m : Nat) : crcBytes 0x0000 (List.replicate m 0x00) = 0x0000 := by
  induction m with
  | zero => rfl
  | succ m ih => rw [List.replicate_succ, crcBytes, List.foldl_cons, crcStep_zero_zero]; exact ih

theorem eq_zero_of_crcBytes_replicate {c : Half} {m : Nat}
    (h : crcBytes c (List.replicate m 0x00) = 0x0000) : c = 0x0000 := by
  induction m generalizing c with
  | zero => exact h
  | succ m ih => exact eq_zero_of_crcShifts_eq_zero ((crcStep_of_zero c).symm.trans (ih h))

/-- Folding the high byte of the state into it leaves the low byte, moved up. -/
theorem crcStep_high (c : Half) : crcStep c (c.extractLsb' 8 8) = c <<< 8 := by
  rw [crcStep_table, BitVec.xor_self]
  exact (congrArg _ crcStep_zero_zero).trans BitVec.xor_zero

/-- 41_checksum.md R81 law 4: the residue. -/
theorem crcBytes_own_checksum (c : Half) :
    crcBytes c [c.extractLsb' 8 8, c.extractLsb' 0 8] = 0x0000 := by
  have hlow : c.extractLsb' 0 8 = (c <<< 8).extractLsb' 8 8 := by
    ext i hi
    simp [show 8 + i < 16 by omega, BitVec.getLsbD_eq_getElem (show i < 16 by omega)]
  calc crcBytes c [c.extractLsb' 8 8, c.extractLsb' 0 8]
      = crcStep (c <<< 8) ((c <<< 8).extractLsb' 8 8) := by
        rw [← hlow, ← crcStep_high]; rfl
    _ = c <<< 8 <<< 8 := crcStep_high _
    _ = 0x0000 := by rw [← BitVec.shiftLeft_add]; exact BitVec.shiftLeft_eq_zero (by decide)

/-- A header of two bytes that folds to 0x0000 is zero: the fold takes the two bytes, as one state, through
shifts that no other state than 0 leaves by 0. -/
theorem eq_zero_of_crcBytes_pair {a k : Byte} (h : crcBytes 0x0000 [a, k] = 0x0000) :
    a = 0x00 ∧ k = 0x00 := by
  have hfirst : crcStep 0x0000 a = k.setWidth 16 <<< 8 :=
    BitVec.xor_eq_zero_iff.mp (eq_zero_of_crcShifts_eq_zero h)
  have hpair : (0x0000 : Half) ^^^ (a.setWidth 16 <<< 8) = k.setWidth 16 :=
    crcShifts_injective (hfirst.trans (crcShifts_low k).symm)
  have hbit (i : Nat) : ((0x0000 : Half) ^^^ (a.setWidth 16 <<< 8)).getLsbD i = (k.setWidth 16).getLsbD i :=
    congrArg (·.getLsbD i) hpair
  constructor
  · ext i hi
    have h8 := hbit (i + 8)
    simpa [hi, show i + 8 < 16 by omega, show i < 16 by omega] using h8
  · ext i hi
    have h0 := hbit i
    simpa [hi, show i < 16 by omega] using h0.symm

end Sys2Proof.Machine

namespace Sys2Proof.Proofs

open Sys2Proof.Machine

/-- Settles O9: the shift step tests the leading bit, and the eight steps are linear, so the low byte of the
state goes through them untouched. -/
theorem foldHasTableForm : Obligations.FoldHasTableForm := by
  refine ⟨fun c b => ?procedure, crcStep_table, by decide, by decide, by decide⟩
  case procedure =>
    have hshift : crcShift = fun d : Half => if d.getLsbD 15 then (d <<< 1) ^^^ 0x1021 else d <<< 1 := by
      funext d
      rw [crcShift, BitVec.msb_eq_getLsbD_last]
      rfl
    rw [crcStep, hshift]

/-- Settles O8: the fold is a fold over the list by a linear and injective step. -/
theorem checksumFoldLaws : Obligations.ChecksumFoldLaws := by
  refine ⟨fun _ => rfl, fun c xs ys => (crcBytes_append c xs ys).symm, crcStep_zero_zero,
    crcBytes_replicate_zero, fun m => ?residue, fun c xs => ?linear, fun a k m h => ?header⟩
  case residue => rw [crcBytes_append, crcBytes_own_checksum]
  case linear =>
    rw [← crcBytes_xor]
    exact congrArg (crcBytes · xs) BitVec.xor_zero.symm
  case header =>
    rw [crcBytes_append] at h
    exact eq_zero_of_crcBytes_pair (eq_zero_of_crcBytes_replicate h)

end Sys2Proof.Proofs
end

section
/-! SUPPORT and RESULTS. What the acceptance of each command does: dropped while BUSY = 1, completed at once,
or a transport command ended by a check or started (O5, O6, O18, O19, O33, O34, O35). -/

namespace Sys2Proof.Machine

/-! ### A command while BUSY = 1 -/

/-- 10_state.md R14: a command word written while BUSY = 1 is dropped, legal or not. -/
theorem exec_of_busy {s : State} (i : Instr) (h : s.status.busy = true) :
    exec i s = .next (dropWrite s) := by
  have hdrop (body : State → State) : issue body s = dropWrite s := issue_of_busy body h
  cases i with
  | crcFeedb c => simp only [exec, execCrcFeedb, illegalCommand, hdrop, ite_self]
  | xwr kc n => simp only [exec, execXwr, illegalCommand, hdrop, ite_self]
  | xrd kc n => simp only [exec, execXrd, illegalCommand, hdrop, ite_self]
  | _ => exact congrArg Host.Outcome.next (hdrop _)

/-! ### The host's write of a command -/

/-- 60_exceptions.md R140: the next move writes a word to CMD, which decodes. -/
theorem step_of_cmdWrite {s : State} {w : Word} {i : Instr} {rest : List Input}
    (hin : s.inputs = .hostWrite .word 0x000 w :: rest) (hbusy : s.status.busy = false)
    (hd : decode w = .ok i) : step s = exec i { s with inputs := rest } := by
  calc step s = hostWrite .word 0x000 w { s with inputs := rest } := step_of_inputs_cons hin
    _ = writeCmd w { s with inputs := rest } :=
        hostWrite_register_of_idle .cmd w rfl (by decide) hbusy trivial rfl
    _ = exec i { s with inputs := rest } := by rw [writeCmd, hd]

theorem decode_of_decodeTableWord {w : Nat} {i : Instr} (h : decodeTableWord 32 w = some i) :
    decode (BitVec.ofNat 32 (w % 2 ^ 32)) = .ok i := by
  rw [decodeTableWord, if_pos (Nat.le_refl 32)] at h
  cases hd : decode (BitVec.ofNat 32 (w % 2 ^ 32)) with
  | ok j => rw [hd] at h; exact congrArg Except.ok (Option.some.inj h)
  | error e => rw [hd] at h; cases h

/-! ### The checksum and codec commands of an idle block -/

/-- A checksum or codec command completes with OK; CRC, DATA and BYTES are the only operands that one of
them writes (41_checksum.md R82 to R84, 42_codec.md R92 to R97). -/
def completedCodec (crc : Half) (data bytes : Word) (s : State) : State :=
  { completedOk s with crc := crc, data := data, bytes := bytes }

/-- The nine checksum and codec commands, with the offset of the register that each writes. -/
def CodecCommand (i : Instr) (dest : Nat) : Prop :=
  (i = .crcClr ∨ (∃ b, i = .crcFeed b) ∨ (∃ c, i = .crcFeedb c)) ∧ dest = 0x00C
    ∨ (i = .enc8 ∨ i = .enc16 ∨ i = .enc32) ∧ dest = 0x014
    ∨ (i = .dec8 ∨ i = .dec16 ∨ i = .dec32) ∧ dest = 0x010

theorem exec_codecCommand_of_idle {s : State} {i : Instr} {dest : Nat} (hbusy : s.status.busy = false)
    (hwf : i.wf = true) (hi : CodecCommand i dest) :
    ∃ crc data bytes, exec i s = .next (completedCodec crc data bytes s)
      ∧ (dest = 0x00C ∨ crc = s.crc) ∧ (dest = 0x010 ∨ data = s.data)
      ∧ (dest = 0x014 ∨ bytes = s.bytes) := by
  obtain ⟨hcrc, rfl⟩ | ⟨henc, rfl⟩ | ⟨hdec, rfl⟩ := hi
  · have hexec : ∃ crc, exec i s = .next (completedCodec crc s.data s.bytes s) := by
      obtain rfl | ⟨b, rfl⟩ | ⟨c, rfl⟩ := hcrc
      · exact ⟨_, exec_crcClr_of_idle hbusy⟩
      · exact ⟨_, exec_crcFeed_of_idle b hbusy⟩
      · exact ⟨_, exec_crcFeedb_of_idle hbusy hwf⟩
    obtain ⟨crc, hcrc⟩ := hexec
    exact ⟨crc, s.data, s.bytes, hcrc, .inl rfl, .inr rfl, .inr rfl⟩
  · have hexec : ∃ bytes, exec i s = .next (completedCodec s.crc s.data bytes s) := by
      obtain rfl | rfl | rfl := henc
      · exact ⟨_, exec_enc8_of_idle hbusy⟩
      · exact ⟨_, exec_enc16_of_idle hbusy⟩
      · exact ⟨_, exec_enc32_of_idle hbusy⟩
    obtain ⟨bytes, hbytes⟩ := hexec
    exact ⟨s.crc, s.data, bytes, hbytes, .inr rfl, .inr rfl, .inl rfl⟩
  · have hexec : ∃ data, exec i s = .next (completedCodec s.crc data s.bytes s) := by
      obtain rfl | rfl | rfl := hdec
      · exact ⟨_, exec_dec8_of_idle hbusy⟩
      · exact ⟨_, exec_dec16_of_idle hbusy⟩
      · exact ⟨_, exec_dec32_of_idle hbusy⟩
    obtain ⟨data, hdata⟩ := hexec
    exact ⟨s.crc, data, s.bytes, hdata, .inr rfl, .inl rfl, .inr rfl⟩

theorem regAt_eq_crc_iff (off : Nat) : regAt off = .crc ↔ off = 0x00C := by
  simp only [regAt, ite_eq_iff, reduceCtorEq, and_false, and_true, false_or, or_false]
  omega

theorem regAt_eq_data_iff (off : Nat) : regAt off = .data ↔ off = 0x010 := by
  simp only [regAt, ite_eq_iff, reduceCtorEq, and_false, and_true, false_or, or_false]
  omega

theorem regAt_eq_bytes_iff (off : Nat) : regAt off = .bytes ↔ off = 0x014 := by
  simp only [regAt, ite_eq_iff, reduceCtorEq, and_false, and_true, false_or, or_false]
  omega

theorem regAt_eq_errinfo_iff (off : Nat) : regAt off = .errinfo ↔ off = 0x018 := by
  simp only [regAt, ite_eq_iff, reduceCtorEq, and_false, and_true, false_or, or_false]
  omega

/-- A checksum or codec command is seen in STATUS, ERRINFO and the operands it writes only. -/
theorem regRead_completedCodec {crc : Half} {data bytes : Word} {s : State} {off : Nat}
    (hstatus : off ≠ 0x004) (herrinfo : off ≠ 0x018) (hcrc : off ≠ 0x00C ∨ crc = s.crc)
    (hdata : off ≠ 0x010 ∨ data = s.data) (hbytes : off ≠ 0x014 ∨ bytes = s.bytes) :
    regRead (completedCodec crc data bytes s) off = regRead s off := by
  unfold regRead
  cases hr : regAt off with
  | status => exact absurd ((regAt_eq_status_iff off).mp hr) hstatus
  | errinfo => exact absurd ((regAt_eq_errinfo_iff off).mp hr) herrinfo
  | crc =>
    exact congrArg (BitVec.setWidth 32) (hcrc.resolve_left (absurd ((regAt_eq_crc_iff off).mp hr)))
  | data => exact hdata.resolve_left (absurd ((regAt_eq_data_iff off).mp hr))
  | bytes => exact hbytes.resolve_left (absurd ((regAt_eq_bytes_iff off).mp hr))
  | _ => rfl

/-! ### A value through the lanes and back -/

theorem extractLsb'_zero_eq_setWidth {w : Nat} (x : BitVec w) (n : Nat) :
    x.extractLsb' 0 n = x.setWidth n := by
  ext i hi
  simp

theorem zero_append_eq_setWidth {m n : Nat} (x : BitVec n) : 0#m ++ x = x.setWidth (m + n) := by
  ext i hi
  rw [BitVec.getElem_append, BitVec.getElem_setWidth]
  by_cases hlow : i < n
  · simp [hlow]
  · simp [hlow, BitVec.getLsbD_of_ge x i (Nat.not_lt.mp hlow)]

/-- Neighbouring bytes of a word are its low half-word. -/
theorem byteOf_one_append_zero (v : Word) : byteOf v 1 ++ byteOf v 0 = v.setWidth 16 := by
  unfold byteOf
  rw [BitVec.extractLsb'_append_extractLsb'_eq_extractLsb' (by rfl), extractLsb'_zero_eq_setWidth]

theorem byteOf_append_four (v : Word) : byteOf v 3 ++ byteOf v 2 ++ byteOf v 1 ++ byteOf v 0 = v := by
  unfold byteOf
  iterate 3 rw [BitVec.extractLsb'_append_extractLsb'_eq_extractLsb' (by rfl)]
  exact BitVec.extractLsb'_eq_self

theorem byteOf_setWidth_append_zero (b0 b1 : Byte) : byteOf ((b0 ++ b1).setWidth 32) 0 = b1 := by
  unfold byteOf
  rw [BitVec.extractLsb'_setWidth_of_le (by decide)]
  exact BitVec.extractLsb'_append_eq_right

theorem byteOf_setWidth_append_one (b0 b1 : Byte) : byteOf ((b0 ++ b1).setWidth 32) 1 = b0 := by
  unfold byteOf
  rw [BitVec.extractLsb'_setWidth_of_le (by decide)]
  exact BitVec.extractLsb'_append_eq_left

theorem byteOf_ofLanes_eq_getD (b0 b1 b2 b3 : Byte) (q : Fin 4) :
    byteOf (ofLanes b0 b1 b2 b3) q = [b0, b1, b2, b3].getD q 0 :=
  byteOf_ofLanes ([b0, b1, b2, b3].getD · 0) q

/-- 42_codec.md R98: the bytes of a value join to the value, truncated to the width. -/
theorem beJoin_beBytes (v : Word) {w : Nat} (hw : w = 1 ∨ w = 2 ∨ w = 4) :
    beJoin (beBytes v w) = (v.setWidth (8 * w)).setWidth 32 := by
  obtain rfl | rfl | rfl := hw
  · exact (beJoin_one (byteOf v 0)).trans (congrArg _ (extractLsb'_zero_eq_setWidth v 8))
  · exact (beJoin_two (byteOf v 1) (byteOf v 0)).trans (congrArg _ (byteOf_one_append_zero v))
  · calc beJoin (beBytes v 4) = v := (beJoin_four ..).trans (byteOf_append_four v)
      _ = (v.setWidth 32).setWidth 32 := by rw [BitVec.setWidth_eq, BitVec.setWidth_eq]

theorem byteOf_beJoin_four (b0 b1 b2 b3 : Byte) (q : Fin 4) :
    byteOf (beJoin [b0, b1, b2, b3]) q = [b3, b2, b1, b0].getD q 0 :=
  (congrArg (byteOf · q) (beJoin_four b0 b1 b2 b3)).trans (byteOf_ofLanes_eq_getD b3 b2 b1 b0 q)

/-- 42_codec.md R98: the bytes of a join are the bytes that were joined. -/
theorem beBytes_beJoin {bs : List Byte} (hw : bs.length = 1 ∨ bs.length = 2 ∨ bs.length = 4) :
    beBytes (beJoin bs) bs.length = bs := by
  match bs, hw with
  | [b0], _ =>
    rw [beJoin_one]
    exact congrArg (fun b => [b])
      ((BitVec.extractLsb'_setWidth_of_le (by decide)).trans BitVec.extractLsb'_eq_self)
  | [b0, b1], _ =>
    have hbytes : beBytes (beJoin [b0, b1]) 2 = [byteOf (beJoin [b0, b1]) 1, byteOf (beJoin [b0, b1]) 0] := rfl
    rw [beJoin_two, byteOf_setWidth_append_one, byteOf_setWidth_append_zero] at hbytes
    rw [beJoin_two]
    exact hbytes
  | [b0, b1, b2, b3], _ =>
    have hbyte := byteOf_beJoin_four b0 b1 b2 b3
    calc beBytes (beJoin [b0, b1, b2, b3]) 4
        = [byteOf _ (3 : Fin 4), byteOf _ (2 : Fin 4), byteOf _ (1 : Fin 4), byteOf _ (0 : Fin 4)] := rfl
      _ = [b0, b1, b2, b3] := by rw [hbyte, hbyte, hbyte, hbyte]; rfl

/-- An encode, the decode of its width, and the width. -/
def CodecPair (enc dec : Instr) (w : Nat) : Prop :=
  (enc = .enc8 ∧ dec = .dec8 ∧ w = 1) ∨ (enc = .enc16 ∧ dec = .dec16 ∧ w = 2)
    ∨ (enc = .enc32 ∧ dec = .dec32 ∧ w = 4)

theorem exec_encode_decode {s : State} {enc dec : Instr} {w : Nat} (hbusy : s.status.busy = false)
    (h : CodecPair enc dec w) :
    ∃ t u, exec enc s = .next t ∧ exec dec t = .next u ∧ u.data = beJoin (beBytes s.data w) := by
  obtain ⟨rfl, rfl, rfl⟩ | ⟨rfl, rfl, rfl⟩ | ⟨rfl, rfl, rfl⟩ := h
  · refine ⟨_, _, exec_enc8_of_idle hbusy, exec_dec8_of_idle rfl, ?_⟩
    have hlane := byteOf_ofLanes_eq_getD (byteOf s.data 0) 0 0 0
    exact congrArg (fun b => beJoin [b]) (hlane 0)
  · refine ⟨_, _, exec_enc16_of_idle hbusy, exec_dec16_of_idle rfl, ?_⟩
    have hlane := byteOf_ofLanes_eq_getD (byteOf s.data 1) (byteOf s.data 0) 0 0
    exact congrArg₂ (fun b c => beJoin [b, c]) (hlane 0) (hlane 1)
  · refine ⟨_, _, exec_enc32_of_idle hbusy, exec_dec32_of_idle rfl, ?_⟩
    have hlane := byteOf_ofLanes_eq_getD (byteOf s.data 3) (byteOf s.data 2) (byteOf s.data 1) (byteOf s.data 0)
    exact congrArg beJoin (List.map_congr_left (l := List.finRange 4) fun q _ => hlane q)

theorem exec_decode_encode {s : State} {enc dec : Instr} {w : Nat} (hbusy : s.status.busy = false)
    (h : CodecPair enc dec w) :
    ∃ t u, exec dec s = .next t ∧ exec enc t = .next u
      ∧ u.bytes = (s.bytes.setWidth (8 * w)).setWidth 32 := by
  obtain ⟨rfl, rfl, rfl⟩ | ⟨rfl, rfl, rfl⟩ | ⟨rfl, rfl, rfl⟩ := h
  · refine ⟨_, _, exec_dec8_of_idle hbusy, exec_enc8_of_idle rfl, ?_⟩
    have hjoin : [byteOf (beJoin [lane s 0]) 0] = [lane s 0] := beBytes_beJoin (bs := [lane s 0]) (.inl rfl)
    calc ofLanes (byteOf (beJoin [lane s 0]) 0) 0 0 0
        = 0#24 ++ lane s 0 := by rw [List.singleton_inj.mp hjoin, ofLanes_one]
      _ = (lane s 0).setWidth 32 := zero_append_eq_setWidth _
      _ = (s.bytes.setWidth 8).setWidth 32 := congrArg _ (extractLsb'_zero_eq_setWidth s.bytes 8)
  · refine ⟨_, _, exec_dec16_of_idle hbusy, exec_enc16_of_idle rfl, ?_⟩
    calc ofLanes (byteOf (beJoin [lane s 0, lane s 1]) 1) (byteOf (beJoin [lane s 0, lane s 1]) 0) 0 0
        = 0#16 ++ lane s 1 ++ lane s 0 := by
          rw [beJoin_two, byteOf_setWidth_append_one, byteOf_setWidth_append_zero, ofLanes_two]
      _ = 0#16 ++ (lane s 1 ++ lane s 0) := BitVec.append_assoc ..
      _ = (lane s 1 ++ lane s 0).setWidth 32 := zero_append_eq_setWidth _
      _ = (s.bytes.setWidth 16).setWidth 32 := congrArg _ (byteOf_one_append_zero s.bytes)
  · refine ⟨_, _, exec_dec32_of_idle hbusy, exec_enc32_of_idle rfl, ?_⟩
    have hbyte := byteOf_beJoin_four (lane s 0) (lane s 1) (lane s 2) (lane s 3)
    have hlanes {x y z w : Byte} (h3 : x = lane s 0) (h2 : y = lane s 1) (h1 : z = lane s 2)
        (h0 : w = lane s 3) : ofLanes x y z w = (s.bytes.setWidth 32).setWidth 32 := by
      rw [h3, h2, h1, h0, BitVec.setWidth_eq, BitVec.setWidth_eq]
      exact byteOf_append_four s.bytes
    exact hlanes (hbyte 3) (hbyte 2) (hbyte 1) (hbyte 0)

/-! ### A transport command that passes its checks -/

/-- The command word of a transport command (30_encoding.md R61). -/
def Op.instr : Op → Byte → BitVec 5 → Instr
  | .xwr => .xwr
  | .xrd => .xrd

theorem exec_transport_of_idle {s : State} (kind : Op) (kc : Byte) {n : BitVec 5}
    (hbusy : s.status.busy = false) (hn : n.toNat ≤ 16) :
    exec (kind.instr kc n) s = .next (acceptTransport kind kc n (accept s)) := by
  cases kind with
  | xwr => exact exec_xwr_of_idle kc hbusy hn
  | xrd => exact exec_xrd_of_idle kc hbusy hn

/-- The state in which a transport command waits for the flush of its first attempt (43_transport.md R100,
R103, R104). -/
def firstAttempt (kind : Op) (kc : Byte) (n : BitVec 5) (s : State) : State :=
  { s with
    status :=
      { busy := true
        done := false
        rvalid := if kind = .xrd then false else s.status.rvalid
        ovr := s.status.ovr
        code := .ok
        attempts := 1 }
    errinfo := 0
    crc := 0x0000
    txlen := 0
    sq := { latchedSequencer kind kc n s with phase := .flush, k := 1, tof := false } }

/-- The state in which the checks have passed and the budget decides (43_transport.md R103). -/
def checkedTransport (kind : Op) (kc : Byte) (n : BitVec 5) (s : State) : State :=
  { latch kind kc n (accept s) with
    status := { (latch kind kc n (accept s)).status with busy := true } }

theorem acceptTransport_of_ready {s : State} (kind : Op) (kc : Byte) {n : BitVec 5}
    (hw : WidthsLegal s n.toNat) (hready : s.port.portcfg = .ready) :
    acceptTransport kind kc n (accept s) = nextAttempt (checkedTransport kind kc n s) := by
  have hnone : firstBadWidth s n.toNat = none := (firstBadWidth_eq_none_iff s n.toNat).mpr hw
  obtain ⟨i, hi, -⟩ | ⟨-, info, hp, -⟩ | ⟨-, -, h⟩ := acceptTransport_cases kind kc n (accept s)
  · cases hnone.symm.trans hi
  · cases hready.symm.trans hp
  · exact h

theorem acceptTransport_of_zeroBudget {s : State} (kind : Op) (kc : Byte) {n : BitVec 5}
    (hw : WidthsLegal s n.toNat) (hready : s.port.portcfg = .ready) (htries : s.cfg.tries = 0) :
    acceptTransport kind kc n (accept s) = endedAtAcceptance kind kc n .errExhausted 0 s := by
  rw [acceptTransport_of_ready kind kc hw hready]
  obtain ⟨-, h⟩ | ⟨hk, -⟩ := nextAttempt_cases (checkedTransport kind kc n s)
  · exact h.trans ((exhausted_eq _).trans (raiseErr_latch_accept ..))
  · exact absurd htries.symm hk

theorem acceptTransport_of_budget {s : State} (kind : Op) (kc : Byte) {n : BitVec 5}
    (hw : WidthsLegal s n.toNat) (hready : s.port.portcfg = .ready) (htries : s.cfg.tries ≠ 0) :
    acceptTransport kind kc n (accept s) = firstAttempt kind kc n s := by
  have hrvalid : (s.status.rvalid && kind != .xrd) = if kind = .xrd then false else s.status.rvalid := by
    cases kind
    · exact Bool.and_true _
    · exact Bool.and_false _
  rw [acceptTransport_of_ready kind kc hw hready, firstAttempt, ← hrvalid]
  obtain ⟨hk, -⟩ | ⟨-, h⟩ := nextAttempt_cases (checkedTransport kind kc n s)
  · exact absurd hk.symm htries
  · exact h

/-- The acceptance of a transport command ends it by a check, or starts its first attempt. -/
theorem acceptTransport_accept_cases (kind : Op) (kc : Byte) (n : BitVec 5) (s : State) :
    (∃ e info, e ≠ .ok
        ∧ acceptTransport kind kc n (accept s) = endedAtAcceptance kind kc n e info s)
      ∨ (WidthsLegal s n.toNat ∧ s.port.portcfg = .ready ∧ s.cfg.tries ≠ 0
        ∧ acceptTransport kind kc n (accept s) = firstAttempt kind kc n s) := by
  cases hbad : firstBadWidth s n.toNat with
  | some i => exact .inl ⟨_, _, by decide, acceptTransport_of_badWidth kind kc hbad⟩
  | none =>
    have hw : WidthsLegal s n.toNat := (firstBadWidth_eq_none_iff s n.toNat).mp hbad
    cases hport : s.port.portcfg with
    | cfgErr info => exact .inl ⟨_, _, by decide, acceptTransport_of_cfgErr kind kc hw hport⟩
    | ready =>
      by_cases htries : s.cfg.tries = 0
      · exact .inl ⟨_, _, by decide, acceptTransport_of_zeroBudget kind kc hw hport htries⟩
      · exact .inr ⟨hw, rfl, htries, acceptTransport_of_budget kind kc hw hport htries⟩

end Sys2Proof.Machine

namespace Sys2Proof.Proofs

open Sys2Proof.Machine

/-- Settles O5: the write is admitted and served, and CMD runs what the word decodes to. -/
theorem stepRunsDecodedCommand : Obligations.StepRunsDecodedCommand :=
  fun _ _ _ _ hin hbusy hd => step_of_cmdWrite hin hbusy hd

/-- Settles O6: the placed word is the next move, whose value is the word of the table. -/
theorem fetchWordRunsNext : Obligations.FetchWordRunsNext := by
  intro s w i hbusy hd
  exact step_of_cmdWrite (s := s.withFetchWord 32 w) rfl hbusy (decode_of_decodeTableWord hd)

/-- Settles O35: the check of BUSY stands before every command's own part. -/
theorem busyTurnsEveryCommandAway : Obligations.BusyTurnsEveryCommandAway :=
  fun _ i hbusy => exec_of_busy i hbusy

/-- Settles O19: each of the nine commands completes with OK and writes one of CRC, DATA and BYTES, at
`dest`. -/
theorem checksumAndCodecFrame : Obligations.ChecksumAndCodecFrame := by
  intro s i dest hbusy hwf hi
  obtain ⟨crc, data, bytes, hexec, hcrc, hdata, hbytes⟩ := exec_codecCommand_of_idle hbusy hwf hi
  refine ⟨completedCodec crc data bytes s, hexec, fun off _ _ hstatus herrinfo hdest => ?reads,
    rfl, rfl, rfl, rfl, rfl, rfl, rfl, rfl⟩
  case reads =>
    exact regRead_completedCodec hstatus herrinfo
      (hcrc.imp_left fun h => ne_of_ne_of_eq hdest h) (hdata.imp_left fun h => ne_of_ne_of_eq hdest h)
      (hbytes.imp_left fun h => ne_of_ne_of_eq hdest h)

/-- Settles O18: join and split are inverse up to the width, and what fits the width survives the
truncation. -/
theorem codecRoundTrip : Obligations.CodecRoundTrip := by
  intro s hbusy enc dec w h
  have hw : w = 1 ∨ w = 2 ∨ w = 4 := by
    obtain ⟨-, -, rfl⟩ | ⟨-, -, rfl⟩ | ⟨-, -, rfl⟩ := h <;> decide
  obtain ⟨t, u, ht, hu, hdata⟩ := exec_encode_decode hbusy h
  have htrunc := hdata.trans (beJoin_beBytes s.data hw)
  refine ⟨⟨t, u, ht, hu, htrunc, fun hfits => ?signed⟩, exec_decode_encode hbusy h⟩
  case signed =>
    rw [htrunc, BitVec.setWidth_setWidth_of_le _ (by omega), BitVec.setWidth_eq, hfits]

/-- Settles O33: both checks pass, and the empty budget ends the command before its first attempt. -/
theorem zeroBudgetEndsExhausted : Obligations.ZeroBudgetEndsExhausted := by
  intro s kc n hbusy hn hw hready htries
  rw [exec_xwr_of_idle kc hbusy hn, exec_xrd_of_idle kc hbusy hn,
    acceptTransport_of_zeroBudget .xwr kc hw hready htries,
    acceptTransport_of_zeroBudget .xrd kc hw hready htries]
  exact ⟨rfl, rfl⟩

/-- Settles O34: both checks pass, and the budget admits the first attempt. -/
theorem transportCommandStartsFirstAttempt : Obligations.TransportCommandStartsFirstAttempt := by
  intro s kind kc n hbusy hn hw hready htries
  have hexec := exec_transport_of_idle kind kc hbusy hn
  rw [acceptTransport_of_budget kind kc hw hready htries] at hexec
  cases kind <;> exact hexec

end Sys2Proof.Proofs
end

section
/-! SUPPORT and RESULTS. What one step can do, said once: the effect of a host write, of an answer of the
port, and of each other move; the rules of the whole machine that follow from it (O7, O25, O30, O53 to
O56). -/

namespace Sys2Proof.Machine

/-! ### The effect of a host write -/

/-- What a host write of `v` at `off` that is admitted can do to the block (20_memory.md R43, 10_state.md
R13, R14, 60_exceptions.md R140): change OVR only, write an operand register of an idle block, complete a
command at once, or start a transport command. -/
inductive WriteEffect (off : Nat) (v : Word) (s : State) : State → Prop
  | flag (ovr : Bool) (h : s.status.ovr = true → ovr = false → off = 0x004 ∧ v.getLsbD 3 = true) :
      WriteEffect off v s { s with status := { s.status with ovr := ovr } }
  | operand (cfg : Cfg) (data bytes : Word) (fval : Vector Word 16) (fwid : Vector Byte 16)
      (hbusy : s.status.busy = false) :
      WriteEffect off v s
        { s with cfg := cfg, data := data, bytes := bytes, fval := fval, fwid := fwid }
  | codec (crc : Half) (data bytes : Word) (hbusy : s.status.busy = false) :
      WriteEffect off v s (completedCodec crc data bytes s)
  | illegal (w : Word) (hbusy : s.status.busy = false) : WriteEffect off v s (completedIllegal w s)
  | refusedTransport (kind : Op) (kc : Byte) (n : BitVec 5) (e : Code) (info : Word)
      (hbusy : s.status.busy = false) (he : e ≠ .ok) :
      WriteEffect off v s (endedAtAcceptance kind kc n e info s)
  | transport (kind : Op) (kc : Byte) (n : BitVec 5) (hbusy : s.status.busy = false)
      (hoff : off = 0x000) (hd : decode v = .ok (kind.instr kc n)) (hn : n.toNat ≤ 16)
      (hw : WidthsLegal s n.toNat) (hready : s.port.portcfg = .ready) (htries : s.cfg.tries ≠ 0) :
      WriteEffect off v s (firstAttempt kind kc n s)

theorem writeEffect_self (off : Nat) (v : Word) (s : State) : WriteEffect off v s s :=
  .flag s.status.ovr fun h h' => absurd (h.symm.trans h') (by decide)

theorem writeEffect_dropWrite (off : Nat) (v : Word) (s : State) : WriteEffect off v s (dropWrite s) :=
  .flag true fun _ h => absurd h (by decide)

theorem writeEffect_writeStatus {off : Nat} (v : Word) (s : State) (hoff : off = 0x004) :
    WriteEffect off v s (writeStatus v s) := by
  unfold writeStatus
  split_ifs with hbit
  · exact .flag false fun _ _ => ⟨hoff, hbit⟩
  · exact writeEffect_self off v s

/-- A command that the decoder reads is one of the nine, or a transport command. -/
theorem codecCommand_or_transport (i : Instr) :
    (∃ dest, CodecCommand i dest) ∨ ∃ kind kc n, i = Op.instr kind kc n := by
  cases i with
  | crcClr => exact .inl ⟨_, .inl ⟨.inl rfl, rfl⟩⟩
  | crcFeed b => exact .inl ⟨_, .inl ⟨.inr (.inl ⟨b, rfl⟩), rfl⟩⟩
  | crcFeedb c => exact .inl ⟨_, .inl ⟨.inr (.inr ⟨c, rfl⟩), rfl⟩⟩
  | enc8 => exact .inl ⟨_, .inr (.inl ⟨.inl rfl, rfl⟩)⟩
  | enc16 => exact .inl ⟨_, .inr (.inl ⟨.inr (.inl rfl), rfl⟩)⟩
  | enc32 => exact .inl ⟨_, .inr (.inl ⟨.inr (.inr rfl), rfl⟩)⟩
  | dec8 => exact .inl ⟨_, .inr (.inr ⟨.inl rfl, rfl⟩)⟩
  | dec16 => exact .inl ⟨_, .inr (.inr ⟨.inr (.inl rfl), rfl⟩)⟩
  | dec32 => exact .inl ⟨_, .inr (.inr ⟨.inr (.inr rfl), rfl⟩)⟩
  | xwr kc n => exact .inr ⟨.xwr, kc, n, rfl⟩
  | xrd kc n => exact .inr ⟨.xrd, kc, n, rfl⟩

theorem Op.instr_wf (kind : Op) (kc : Byte) (n : BitVec 5) :
    (kind.instr kc n).wf = decide (n.toNat ≤ 16) := by cases kind <;> rfl

theorem writeEffect_writeCmd {off : Nat} {v : Word} {s t : State} (hbusy : s.status.busy = false)
    (hoff : off = 0x000) (h : writeCmd v s = .next t) : WriteEffect off v s t := by
  rw [writeCmd_of_idle v hbusy] at h
  cases hd : decode v with
  | error e =>
    rw [hd] at h
    cases h
    exact .illegal v hbusy
  | ok i =>
    rw [hd] at h
    have hwf := (wf_and_encode_of_decode hd).1
    obtain ⟨dest, hcodec⟩ | ⟨kind, kc, n, rfl⟩ := codecCommand_or_transport i
    · obtain ⟨crc, data, bytes, hexec, -⟩ := exec_codecCommand_of_idle hbusy hwf hcodec
      cases hexec.symm.trans h
      exact .codec crc data bytes hbusy
    · have hn : n.toNat ≤ 16 := of_decide_eq_true ((kind.instr_wf kc n).symm.trans hwf)
      have hnext := (exec_transport_of_idle kind kc hbusy hn).symm.trans h
      obtain ⟨e, info, he, hend⟩ | ⟨hw, hready, htries, hstart⟩ :=
        acceptTransport_accept_cases kind kc n s
      · rw [hend] at hnext
        cases hnext
        exact .refusedTransport kind kc n e info hbusy he
      · rw [hstart] at hnext
        cases hnext
        exact .transport kind kc n hbusy hoff hd hn hw hready htries

theorem writeEffect_regWrite {off : Nat} {v : Word} {s t : State} (h : regWrite off v s = .next t) :
    WriteEffect off v s t := by
  cases hbusy : s.status.busy with
  | true =>
    by_cases hoff : off = 0x004
    · rw [hoff, regWrite_status] at h
      cases h
      exact writeEffect_writeStatus v s hoff
    · cases (regWrite_of_busy v hbusy hoff).symm.trans h
      exact writeEffect_dropWrite off v s
  | false =>
    rw [regWrite_of_idle off v hbusy] at h
    cases hr : regAt off with
    | cmd =>
      rw [hr] at h
      exact writeEffect_writeCmd hbusy ((regAt_eq_cmd_iff off).mp hr) h
    | status =>
      rw [hr] at h
      cases h
      exact writeEffect_writeStatus v s ((regAt_eq_status_iff off).mp hr)
    | cfg | data | bytes | fval i | fwid i =>
      rw [hr] at h
      cases h
      exact .operand _ _ _ _ _ hbusy
    | crc | errinfo | txlen | res i | txbufWord m | reserved =>
      rw [hr] at h
      cases h
      exact writeEffect_self off v s

theorem writeEffect_hostWrite {size : AccessSize} {off : Nat} {v : Word} {s t : State}
    (h : hostWrite size off v s = .next t) : size = .word ∧ WriteEffect off v s t := by
  unfold hostWrite at h
  cases hadm : notAdmitted size off with
  | some f => rw [hadm] at h; cases h
  | none =>
    rw [hadm] at h
    exact ⟨((notAdmitted_eq_none_iff size off).mp hadm).1, writeEffect_regWrite h⟩

/-- 10_state.md R14: while BUSY = 1 a host write can change OVR only. -/
theorem WriteEffect.eq_of_busy {off : Nat} {v : Word} {s t : State} (h : WriteEffect off v s t)
    (hbusy : s.status.busy = true) :
    ∃ ovr, t = { s with status := { s.status with ovr := ovr } } := by
  cases h with
  | flag ovr => exact ⟨ovr, rfl⟩
  | operand _ _ _ _ _ hidle => cases hbusy.symm.trans hidle
  | codec _ _ _ hidle => cases hbusy.symm.trans hidle
  | illegal _ hidle => cases hbusy.symm.trans hidle
  | refusedTransport _ _ _ _ _ hidle => cases hbusy.symm.trans hidle
  | transport _ _ _ hidle => cases hbusy.symm.trans hidle

/-! ### The stream operation an answer performs -/

/-- The state after the outstanding operation has been answered, before the sequencer goes on
(20_memory.md R49 to R51). -/
def operated (a : PortAnswer) (s : State) : State :=
  match s.sq.phase with
  | .idle => s
  | .flush => (streamFlush a s).2
  | .tx => (streamWrite (request s) a s).2
  | _ => (streamRead1 a s).2

/-- The operation changes the input buffer, which gets no longer, and adds to TXLOG one answer, and a packet
if it is a write. -/
theorem operated_cases (a : PortAnswer) {s : State} (hphase : s.sq.phase ≠ .idle) :
    ∃ rxq packets r, rxq.length ≤ s.port.rxq.length ∧ (packets ≠ [] → s.sq.phase = .tx ∧ packets.length = 1)
      ∧ operated a s = { s with
          port := { s.port with rxq := rxq }
          txlog := { packets := s.txlog.packets ++ packets, answers := s.txlog.answers ++ [r] } } := by
  have hread : ∃ rxq r, rxq.length ≤ s.port.rxq.length ∧ (streamRead1 a s).2 = { s with
      port := { s.port with rxq := rxq }
      txlog := { packets := s.txlog.packets ++ [], answers := s.txlog.answers ++ [r] } } := by
    rw [List.append_nil]
    obtain ⟨b, rest, -, hrxq, h⟩ | ⟨-, -, h⟩ | ⟨info, keep, sent, -, h⟩ := streamRead1_cases a s
    · rw [h, hrxq]
      exact ⟨rest, .readByte b, Nat.le_succ _, rfl⟩
    · rw [h]
      exact ⟨s.port.rxq, .readTimeout, Nat.le_refl _, rfl⟩
    · rw [h]
      exact ⟨s.port.rxq, .readErr info, Nat.le_refl _, rfl⟩
  obtain ⟨rxq, r, hlen, hread⟩ := hread
  unfold operated
  cases hp : s.sq.phase with
  | idle => exact absurd hp hphase
  | flush =>
    obtain ⟨-, h⟩ | ⟨info, keep, sent, -, h⟩ := streamFlush_cases a s
    · rw [h]
      exact ⟨[], [], .flushOk, Nat.zero_le _, fun h => absurd rfl h, by rw [List.append_nil]; rfl⟩
    · rw [h]
      exact ⟨keptBy keep s.port.rxq, [], .flushErr info, (keptBy_sublist _ _).length_le,
        fun h => absurd rfl h, by rw [List.append_nil]; rfl⟩
  | tx =>
    obtain ⟨-, h⟩ | ⟨info, keep, sent, -, h⟩ := streamWrite_cases (request s) a s
    · rw [h]
      exact ⟨s.port.rxq, [request s], .writeOk (request s), Nat.le_refl _, fun _ => ⟨rfl, rfl⟩, rfl⟩
    · rw [h]
      exact ⟨s.port.rxq, [(request s).take sent], .writeErr info ((request s).take sent), Nat.le_refl _,
        fun _ => ⟨rfl, rfl⟩, rfl⟩
  | ack | rxd | rxc0 | rxc1 => exact ⟨rxq, [], r, hlen, fun h => absurd rfl h, hread⟩

/-! ### The end of an attempt -/

/-- The state in which the attempt after a failed one waits for its flush (43_transport.md R103, R104). -/
def retried (why : LastFail) (info : Word) (s : State) : State :=
  { s with
    status := { s.status with attempts := s.sq.k + 1 }
    crc := 0x0000
    txlen := 0
    sq := { s.sq with
      k := s.sq.k + 1, tof := false, phase := .flush, lastfail := why, lastinfo := info } }

/-- A failed attempt ends the command with an error, or starts the next attempt (43_transport.md R103,
R105, R106). -/
inductive AttemptOver (s : State) : State → Prop
  | ended (e : Code) (why : LastFail) (info : Word) (he : e ≠ .ok) :
      AttemptOver s
        { s with
          status := { s.status with busy := false, done := true, code := e }
          errinfo := info
          sq := { s.sq with phase := .idle, lastfail := why, lastinfo := info } }
  | again (why : LastFail) (info : Word) (hk : s.sq.k ≠ s.cfg.tries) :
      AttemptOver s (retried why info s)

theorem attemptOver_failAttempt (why : LastFail) (info : Word) (s : State) :
    AttemptOver s (failAttempt why info s) := by
  unfold failAttempt
  obtain ⟨-, h⟩ | ⟨hk, h⟩ :=
    nextAttempt_cases { s with sq := { s.sq with lastfail := why, lastinfo := info } }
  · rw [h, exhausted_eq]
    exact .ended _ why info (by split_ifs <;> decide)
  · rw [h]
    exact .again why info hk

theorem attemptOver_ioError (info : Word) (s : State) : AttemptOver s (ioError info s) := by
  obtain ⟨-, h⟩ | ⟨-, h⟩ := ioError_cases info s
  · rw [h]
    exact attemptOver_failAttempt .io info s
  · rw [h]
    exact .ended .errIo .io info (by decide)

/-! ### The effect of an answer -/

/-- The state with the timeout flag and the received checksum of an attempt as a read has left them. -/
def withRead (tof : Bool) (rxcrc : Half) (s : State) : State :=
  { s with sq := { s.sq with tof := tof, rxcrc := rxcrc } }

/-- What the sequencer does from `s`, where the outstanding operation is answered and recorded: the attempt
fails, or it goes on to its next operation, or the command ends with OK (43_transport.md R104 to R118). -/
inductive AnswerEffect (s : State) : State → Prop
  | failed (tof : Bool) (rxcrc : Half) {t : State} (h : AttemptOver (withRead tof rxcrc s) t) :
      AnswerEffect s t
  | built (hp : s.sq.phase = .flush) : AnswerEffect s (setPhase .tx (buildRequest s))
  | written (hp : s.sq.phase = .tx) (hop : s.sq.op = .xwr) : AnswerEffect s (setPhase .ack s)
  | asked (hp : s.sq.phase = .tx) (hop : s.sq.op = .xrd) : AnswerEffect s (startField 0 s)
  | acked (hp : s.sq.phase = .ack) : AnswerEffect s (finishOk s)
  | field (x : Byte) (tof : Bool) (hp : s.sq.phase = .rxd) :
      AnswerEffect s (fieldByte x (withRead tof s.sq.rxcrc s))
  | high (x : Byte) (tof : Bool) (hp : s.sq.phase = .rxc0) :
      AnswerEffect s (crcHighByte x (withRead tof s.sq.rxcrc s))
  | verified (tof : Bool) (rxcrc : Half) (hp : s.sq.phase = .rxc1)
      (hv : verified (withRead tof rxcrc s) = true) :
      AnswerEffect s
        (finishOk
          { withRead tof rxcrc s with
            res := copyBelow s.sq.n.toNat s.sq.stg s.res
            status := { s.status with rvalid := true } })

theorem answerEffect_ioError (info : Word) (s : State) : AnswerEffect s (ioError info s) :=
  .failed s.sq.tof s.sq.rxcrc (attemptOver_ioError info s)

theorem answerEffect_failAttempt (why : LastFail) (info : Word) (s : State) :
    AnswerEffect s (failAttempt why info s) :=
  .failed s.sq.tof s.sq.rxcrc (attemptOver_failAttempt why info s)

theorem answerEffect_onFlush (a : PortAnswer) {s : State} (hp : s.sq.phase = .flush) :
    AnswerEffect (streamFlush a s).2 (onFlush a s) := by
  unfold onFlush
  obtain ⟨-, h⟩ | ⟨info, keep, sent, -, h⟩ := streamFlush_cases a s
  · rw [h]
    exact .built hp
  · rw [h]
    exact answerEffect_ioError info _

theorem answerEffect_onTx (a : PortAnswer) {s : State} (hp : s.sq.phase = .tx) :
    AnswerEffect (streamWrite (request s) a s).2 (onTx a s) := by
  unfold onTx
  obtain ⟨-, h⟩ | ⟨info, keep, sent, -, h⟩ := streamWrite_cases (request s) a s
  · rw [h]
    dsimp only
    split
    · exact .written hp ‹_›
    · exact .asked hp ‹_›
  · rw [h]
    exact answerEffect_ioError info _

theorem answerEffect_onAck (a : PortAnswer) {s : State} (hp : s.sq.phase = .ack) :
    AnswerEffect (streamRead1 a s).2 (onAck a s) := by
  unfold onAck
  obtain ⟨b, rest, -, -, h⟩ | ⟨-, -, h⟩ | ⟨info, keep, sent, -, h⟩ := streamRead1_cases a s
  · rw [h]
    dsimp only
    split_ifs
    · exact .acked hp
    · exact answerEffect_failAttempt ..
  · rw [h]
    exact answerEffect_failAttempt ..
  · rw [h]
    exact answerEffect_ioError info _

/-- A read of a response byte hands the byte on with the timeout flag, or fails the attempt. -/
theorem answerEffect_readOrZero {got : Byte → State → State} (a : PortAnswer) {s : State}
    (hgot : ∀ (x : Byte) (tof : Bool) (u : State), u.sq = s.sq →
      AnswerEffect u (got x (withRead tof u.sq.rxcrc u))) :
    AnswerEffect (streamRead1 a s).2 (readOrZero got a s) := by
  unfold readOrZero
  obtain ⟨b, rest, -, -, h⟩ | ⟨-, -, h⟩ | ⟨info, keep, sent, -, h⟩ := streamRead1_cases a s
  · rw [h]
    exact hgot b s.sq.tof _ rfl
  · rw [h]
    exact hgot 0x00 true _ rfl
  · rw [h]
    exact answerEffect_ioError info _

theorem answerEffect_crcLowByte (x : Byte) (tof : Bool) {s : State} (hp : s.sq.phase = .rxc1) :
    AnswerEffect s (crcLowByte x (withRead tof s.sq.rxcrc s)) := by
  have hread : crcLowByte x (withRead tof s.sq.rxcrc s) =
      verdict (withRead tof (s.sq.rxcrc.extractLsb' 8 8 ++ x) s) := rfl
  rw [hread]
  obtain ⟨hv, h⟩ | ⟨-, h⟩ := verdict_cases (withRead tof (s.sq.rxcrc.extractLsb' 8 8 ++ x) s)
  · rw [h]
    exact .verified tof _ hp hv
  · rw [h]
    exact .failed tof _ (attemptOver_failAttempt ..)

/-- 20_memory.md R52: while a command runs, every answer of the port is taken. -/
theorem onAnswer_effect (a : PortAnswer) {s : State} (hphase : s.sq.phase ≠ .idle) :
    ∃ t, onAnswer a s = .next t ∧ AnswerEffect (operated a s) t := by
  unfold onAnswer operated
  cases hp : s.sq.phase with
  | idle => exact absurd hp hphase
  | flush => exact ⟨_, rfl, answerEffect_onFlush a hp⟩
  | tx => exact ⟨_, rfl, answerEffect_onTx a hp⟩
  | ack => exact ⟨_, rfl, answerEffect_onAck a hp⟩
  | rxd =>
    exact ⟨_, rfl, answerEffect_readOrZero a fun x tof u hu => .field x tof ((congrArg _ hu).trans hp)⟩
  | rxc0 =>
    exact ⟨_, rfl, answerEffect_readOrZero a fun x tof u hu => .high x tof ((congrArg _ hu).trans hp)⟩
  | rxc1 =>
    exact ⟨_, rfl, answerEffect_readOrZero a fun x tof u hu =>
      answerEffect_crcLowByte x tof ((congrArg _ hu).trans hp)⟩

/-! ### The effect of a step -/

/-- The state that goes on from an answer: the move is taken, the input buffer is `rxq`, and TXLOG has the
answer `r` and what was sent. -/
def answered (rest : List Input) (rxq : List Byte) (packets : List (List Byte)) (r : PortRecord)
    (s : State) : State :=
  { s with
    inputs := rest
    port := { s.port with rxq := rxq }
    txlog := { packets := s.txlog.packets ++ packets, answers := s.txlog.answers ++ [r] } }

/-- What a step that goes on can do, by the kind of the next move (20_memory.md R53). -/
inductive StepEffect (s : State) : State → Prop
  | waits (hin : s.inputs = []) : StepEffect s s
  | read {size : AccessSize} {off : Nat} {rest : List Input} (hin : s.inputs = .hostRead size off :: rest)
      (v : Word) : StepEffect s { s with inputs := rest, readLog := s.readLog ++ [v] }
  | write {off : Nat} {v : Word} {rest : List Input} {t : State}
      (hin : s.inputs = .hostWrite .word off v :: rest)
      (h : WriteEffect off v { s with inputs := rest } t) : StepEffect s t
  | device {b : Byte} {rest : List Input} (hin : s.inputs = .deviceByte b :: rest) (rxq : List Byte)
      (hlen : s.port.rxq.length ≤ s.build.rxDepth → rxq.length ≤ s.build.rxDepth) :
      StepEffect s { s with inputs := rest, port := { s.port with rxq := rxq } }
  | answer {a : PortAnswer} {rest : List Input} {t : State} (hin : s.inputs = .portAnswer a :: rest)
      (hphase : s.sq.phase ≠ .idle) (rxq : List Byte) (packets : List (List Byte)) (r : PortRecord)
      (hlen : rxq.length ≤ s.port.rxq.length)
      (hsent : packets ≠ [] → s.sq.phase = .tx ∧ packets.length = 1)
      (h : AnswerEffect (answered rest rxq packets r s) t) : StepEffect s t
  | reset {sent : Nat} {rxq : List Byte} {rest : List Input} (hin : s.inputs = .reset sent rxq :: rest) :
      StepEffect s (applyReset sent rxq { s with inputs := rest })

theorem stepEffect_deviceArrival {b : Byte} {s : State} {rest : List Input}
    (hin : s.inputs = .deviceByte b :: rest) :
    StepEffect s (deviceArrival b { s with inputs := rest }) := by
  obtain ⟨hroom, h⟩ | ⟨-, h⟩ := deviceArrival_cases b { s with inputs := rest }
  · rw [h]
    exact .device hin _ fun _ => by simpa using hroom
  · rw [h]
    exact .device hin s.port.rxq id

theorem stepEffect_of_step {s t : State} (h : step s = .next t) : StepEffect s t := by
  obtain ⟨hin, hs⟩ | ⟨e, rest, hin, hs⟩ := step_cases s
  · cases hs.symm.trans h
    exact .waits hin
  rw [hs] at h
  cases e with
  | hostRead size off =>
    simp only [handle, hostRead] at h
    split at h
    · cases h
    · cases h
      exact .read hin _
  | hostWrite size off v =>
    obtain ⟨rfl, hw⟩ := writeEffect_hostWrite h
    exact .write hin hw
  | deviceByte b =>
    cases h
    exact stepEffect_deviceArrival hin
  | portAnswer a =>
    by_cases hphase : s.sq.phase = .idle
    · simp only [handle, onAnswer, hphase] at h
      cases h
    · obtain ⟨u, hu, heff⟩ := onAnswer_effect (s := { s with inputs := rest }) a hphase
      cases hu.symm.trans h
      obtain ⟨rxq, packets, r, hlen, hsent, hop⟩ :=
        operated_cases a (s := { s with inputs := rest }) hphase
      rw [hop] at heff
      exact .answer hin hphase rxq packets r hlen hsent heff
  | reset sent rxq =>
    cases h
    exact .reset hin

/-! ### What an answer leaves unchanged -/

/-- The operands, the latched command, OVR, the environment, its record and the moves to come are the
same. -/
structure OperandsKept (s t : State) : Prop where
  cfg : t.cfg = s.cfg
  fval : t.fval = s.fval
  fwid : t.fwid = s.fwid
  data : t.data = s.data
  bytes : t.bytes = s.bytes
  op : t.sq.op = s.sq.op
  kc : t.sq.kc = s.sq.kc
  n : t.sq.n = s.sq.n
  ovr : t.status.ovr = s.status.ovr
  port : t.port = s.port
  txlog : t.txlog = s.txlog
  build : t.build = s.build
  inputs : t.inputs = s.inputs
  readLog : t.readLog = s.readLog

theorem AttemptOver.operandsKept {s t : State} (h : AttemptOver s t) : OperandsKept s t := by
  cases h <;> exact ⟨rfl, rfl, rfl, rfl, rfl, rfl, rfl, rfl, rfl, rfl, rfl, rfl, rfl, rfl⟩

theorem operandsKept_buildRequest (s : State) : OperandsKept s (setPhase .tx (buildRequest s)) := by
  cases hop : s.sq.op with
  | xwr =>
    rw [buildRequest_of_xwr hop, xwrBuild_frame]
    exact ⟨rfl, rfl, rfl, rfl, rfl, rfl, rfl, rfl, rfl, rfl, rfl, rfl, rfl, rfl⟩
  | xrd =>
    rw [buildRequest_of_xrd hop]
    exact ⟨rfl, rfl, rfl, rfl, rfl, rfl, rfl, rfl, rfl, rfl, rfl, rfl, rfl, rfl⟩

theorem operandsKept_startField (i : BitVec 5) (s : State) : OperandsKept s (startField i s) := by
  obtain ⟨-, h⟩ | ⟨-, h⟩ := startField_cases i s <;> rw [h] <;>
    exact ⟨rfl, rfl, rfl, rfl, rfl, rfl, rfl, rfl, rfl, rfl, rfl, rfl, rfl, rfl⟩

theorem operandsKept_fieldByte (x : Byte) (s : State) : OperandsKept s (fieldByte x s) := by
  obtain ⟨-, h⟩ | ⟨-, h⟩ := fieldByte_cases x s <;> rw [h]
  · exact ⟨rfl, rfl, rfl, rfl, rfl, rfl, rfl, rfl, rfl, rfl, rfl, rfl, rfl, rfl⟩
  · obtain ⟨⟩ := operandsKept_startField (s.sq.i + 1)
      { s with
        crc := crcStep s.crc x
        sq := { s.sq with
          rxb := s.sq.rxb ++ [x]
          j := s.sq.j + 1
          stg := s.sq.stg.setIfInBounds s.sq.i.toNat (beJoin (s.sq.rxb ++ [x])) } }
    constructor <;> assumption

theorem AnswerEffect.operandsKept {s t : State} (h : AnswerEffect s t) : OperandsKept s t := by
  cases h with
  | failed tof rxcrc h =>
    obtain ⟨⟩ := h.operandsKept
    constructor <;> assumption
  | built => exact operandsKept_buildRequest s
  | asked => exact operandsKept_startField 0 s
  | field x tof =>
    obtain ⟨⟩ := operandsKept_fieldByte x (withRead tof s.sq.rxcrc s)
    constructor <;> assumption
  | written | acked | high | verified =>
    exact ⟨rfl, rfl, rfl, rfl, rfl, rfl, rfl, rfl, rfl, rfl, rfl, rfl, rfl, rfl⟩

theorem startField_res (i : BitVec 5) (s : State) : (startField i s).res = s.res := by
  obtain ⟨-, h⟩ | ⟨-, h⟩ := startField_cases i s <;> rw [h]

theorem fieldByte_res (x : Byte) (s : State) : (fieldByte x s).res = s.res := by
  obtain ⟨-, h⟩ | ⟨-, h⟩ := fieldByte_cases x s <;> rw [h]
  exact startField_res ..

theorem buildRequest_res (s : State) : (buildRequest s).res = s.res := by
  cases hop : s.sq.op with
  | xwr => rw [buildRequest_of_xwr hop, xwrBuild_frame]
  | xrd => rw [buildRequest_of_xrd hop]; rfl

/-! ### No other move stops -/

theorem regWrite_answers_next (off : Nat) (v : Word) (s : State) : ∃ t, regWrite off v s = .next t := by
  unfold regWrite
  split_ifs
  · exact ⟨_, rfl⟩
  cases regAt off with
  | cmd =>
    simp only [writeReg, writeCmd]
    split
    · exact exec_answers_next _ s
    · exact ⟨_, rfl⟩
  | _ => exact ⟨_, rfl⟩

theorem unadmitted_of_notAdmitted {size : AccessSize} {off : Nat} {f : Fault}
    (h : notAdmitted size off = some f) : size ≠ .word ∨ off % 4 ≠ 0 ∨ 0x1000 ≤ off := by
  by_contra hadm
  simp only [not_or, not_not, not_le] at hadm
  rw [(notAdmitted_eq_none_iff size off).mpr hadm] at h
  cases h

end Sys2Proof.Machine

namespace Sys2Proof.Proofs

open Sys2Proof.Machine

/-- Settles O7: the bus names a fault for the accesses it does not admit, the sequencer refuses an answer in
IDLE, and each other move has an effect. -/
theorem onlyUnadmittedMovesStop : Obligations.OnlyUnadmittedMovesStop := by
  intro s
  obtain ⟨-, hs⟩ | ⟨e, rest, hin, hs⟩ := step_cases s
  · exact .inl ⟨s, hs⟩
  rw [hs]
  cases e with
  | hostRead size off =>
    cases hadm : notAdmitted size off with
    | none => exact .inl ⟨_, by rw [handle, hostRead, hadm]⟩
    | some f =>
      exact .inr (.inl ⟨size, off, rest, f, .inl hin, unadmitted_of_notAdmitted hadm,
        by rw [handle, hostRead, hadm]⟩)
  | hostWrite size off v =>
    cases hadm : notAdmitted size off with
    | none =>
      obtain ⟨t, ht⟩ := regWrite_answers_next off v { s with inputs := rest }
      exact .inl ⟨t, by rw [handle, hostWrite, hadm]; exact ht⟩
    | some f =>
      exact .inr (.inl ⟨size, off, rest, f, .inr ⟨v, hin⟩, unadmitted_of_notAdmitted hadm,
        by rw [handle, hostWrite, hadm]⟩)
  | deviceByte b => exact .inl ⟨_, rfl⟩
  | portAnswer a =>
    by_cases hphase : s.sq.phase = .idle
    · exact .inr (.inr ⟨a, rest, hin, hphase, by simp only [handle, onAnswer, hphase]⟩)
    · obtain ⟨t, ht, -⟩ := onAnswer_effect (s := { s with inputs := rest }) a hphase
      exact .inl ⟨t, ht⟩
  | reset sent rxq => exact .inl ⟨_, rfl⟩

/-- Settles O25: only a write to STATUS with bit 3 set and a reset write a 0 to OVR. -/
theorem overrunFlagIsSticky : Obligations.OverrunFlagIsSticky := by
  intro s t hstep hovr
  cases stepEffect_of_step hstep with
  | waits | read | device => exact .inl hovr
  | write hin h =>
    cases h with
    | flag ovr hclear =>
      cases ovr with
      | true => exact .inl rfl
      | false =>
        obtain ⟨rfl, hbit⟩ := hclear hovr rfl
        exact .inr (.inl ⟨_, _, hin, hbit⟩)
    | operand | codec | illegal | refusedTransport | transport => exact .inl hovr
  | answer _ _ _ _ _ _ _ h => exact .inl (h.operandsKept.ovr.trans hovr)
  | reset hin => exact .inr (.inr ⟨_, _, _, hin⟩)

/-- Settles O30: the record is written by the stream operation of an answer, which adds one, and by the
write that a reset abandons. -/
theorem transmitRecordOnlyGrows : Obligations.TransmitRecordOnlyGrows := by
  intro s t hstep
  have hunchanged (hlog : t.txlog = s.txlog) (hin : ¬ ∃ a rest, s.inputs = .portAnswer a :: rest) :
      ∃ packets answers, t.txlog.packets = s.txlog.packets ++ packets
        ∧ t.txlog.answers = s.txlog.answers ++ answers
        ∧ ((∃ a rest, s.inputs = .portAnswer a :: rest) → answers.length = 1)
        ∧ ((¬ ∃ a rest, s.inputs = .portAnswer a :: rest) → answers = [])
        ∧ (packets ≠ [] → s.sq.phase = .tx ∧ packets.length = 1) :=
    ⟨[], [], by rw [hlog, List.append_nil], by rw [hlog, List.append_nil], fun h => absurd h hin,
      fun _ => rfl, fun h => absurd rfl h⟩
  cases stepEffect_of_step hstep with
  | waits hin => exact hunchanged rfl (by simp [hin])
  | read hin => exact hunchanged rfl (by simp [hin])
  | device hin => exact hunchanged rfl (by simp [hin])
  | write hin h => exact hunchanged (by cases h <;> rfl) (by simp [hin])
  | answer hin _ _ packets r _ hsent h =>
    have hlog := h.operandsKept.txlog
    exact ⟨packets, [r], congrArg TxLog.packets hlog, congrArg TxLog.answers hlog, fun _ => rfl,
      fun h => absurd ⟨_, _, hin⟩ h, hsent⟩
  | reset hin =>
    refine ⟨abandonedPackets _ s, [], rfl, (List.append_nil _).symm, fun h => ?_, fun _ => rfl, fun h => ?_⟩
    · simp [hin] at h
    · unfold abandonedPackets at h ⊢
      cases hp : s.sq.phase with
      | tx => exact ⟨rfl, rfl⟩
      | _ => rw [hp] at h; exact absurd rfl h

/-- Settles O53: no effect of a step is on the configuration or the setup state. -/
theorem buildParametersAreFixed : Obligations.BuildParametersAreFixed := by
  refine ⟨fun s t hstep => ?_, rfl, rfl⟩
  cases stepEffect_of_step hstep with
  | waits | read | device | reset => exact ⟨rfl, rfl⟩
  | write _ h => cases h <;> exact ⟨rfl, rfl⟩
  | answer _ _ _ _ _ _ _ h =>
    exact ⟨h.operandsKept.build, (congrArg Port.portcfg h.operandsKept.port).trans rfl⟩

/-- Settles O54: a host write of a running command can change OVR only, and an answer keeps the operands. -/
theorem runningCommandOperandsFrozen : Obligations.RunningCommandOperandsFrozen := by
  intro s t hbusy hphase hstep hreset
  cases stepEffect_of_step hstep with
  | waits | read | device => exact ⟨rfl, rfl, rfl, rfl, rfl, rfl, rfl, rfl⟩
  | write _ h =>
    obtain ⟨ovr, rfl⟩ := h.eq_of_busy hbusy
    exact ⟨rfl, rfl, rfl, rfl, rfl, rfl, rfl, rfl⟩
  | answer _ _ _ _ _ _ _ h =>
    have hkept := h.operandsKept
    exact ⟨hkept.cfg, hkept.fval, hkept.fwid, hkept.data, hkept.bytes, hkept.op, hkept.kc, hkept.n⟩
  | reset hin => exact absurd hin (hreset _ _ _)

/-- Settles O55: an answer is refused in IDLE, and of the host's writes only a transport command that passes
its checks leaves it. -/
theorem onlyTransportCommandsLeaveIdle : Obligations.OnlyTransportCommandsLeaveIdle := by
  intro s t hstep hidle hleft
  cases stepEffect_of_step hstep with
  | waits | read | device => exact absurd hidle hleft
  | write hin h =>
    cases h with
    | flag | operand => exact absurd hidle hleft
    | codec | illegal | refusedTransport => exact absurd rfl hleft
    | transport kind kc n _ hoff hd =>
      refine ⟨rfl, rfl, _, _, kc, n, hoff ▸ hin, ?_⟩
      cases kind
      · exact .inl hd
      · exact .inr hd
  | answer _ hphase => exact absurd hidle hphase
  | reset => exact absurd rfl hleft

/-- Settles O56: of the effects of an answer only the verified end writes RES. -/
theorem resultsChangeOnlyWhenVerified : Obligations.ResultsChangeOnlyWhenVerified := by
  intro s t hstep hres
  cases stepEffect_of_step hstep with
  | waits | read | device => exact absurd rfl hres
  | write _ h => cases h <;> exact absurd rfl hres
  | answer _ _ _ _ _ _ _ h =>
    cases h with
    | failed _ _ h => cases h <;> exact absurd rfl hres
    | built => exact absurd (buildRequest_res _) hres
    | written | acked | high => exact absurd rfl hres
    | asked => exact absurd (startField_res ..) hres
    | field => exact absurd (fieldByte_res ..) hres
    | verified tof rxcrc hp hv =>
      obtain ⟨hcrc, hlate⟩ := (verified_eq_true_iff _).mp hv
      exact .inr ⟨hp, rfl, rfl, rfl, rfl, hcrc, fun hpolicy =>
        eq_false_of_ne_true fun htof => hlate ⟨hpolicy, htof⟩⟩
  | reset hin => exact .inl ⟨_, _, _, hin⟩

end Sys2Proof.Proofs
end

section
/-! SUPPORT and RESULTS. The two invariants of a run, kept by every step, and the measure of the stream
operations left (O51, O52, O57, O58). -/

namespace Sys2Proof.Machine

/-! ### The sequencer invariant -/

theorem inv_of_idle {s : State} (hphase : s.sq.phase = .idle) (hbusy : s.status.busy = false)
    (hrxq : s.port.rxq.length ≤ s.build.rxDepth) (htxlen : s.txlen.toNat ≤ 68) : State.Inv s where
  busyPhase := iff_of_false (by simp [hbusy]) (not_not.mpr hphase)
  rxqBound := hrxq
  txlenBound := htxlen
  running h := absurd hphase h

theorem inv_of_running {s : State} (hphase : s.sq.phase ≠ .idle) (hbusy : s.status.busy = true)
    (hrxq : s.port.rxq.length ≤ s.build.rxDepth) (htxlen : s.txlen.toNat ≤ 68) (h : Running s) :
    State.Inv s where
  busyPhase := iff_of_true hbusy hphase
  rxqBound := hrxq
  txlenBound := htxlen
  running _ := h

theorem State.Inv.idle_of_not_busy {s : State} (h : State.Inv s) (hbusy : s.status.busy = false) :
    s.sq.phase = .idle := by
  by_contra hphase
  exact absurd (h.busyPhase.mpr hphase) (by simp [hbusy])

/-- The operation of an answer touches the port and its record only. -/
theorem State.Inv.answered {s : State} {rest : List Input} {rxq : List Byte}
    {packets : List (List Byte)} {r : PortRecord} (h : State.Inv s)
    (hlen : rxq.length ≤ s.port.rxq.length) : State.Inv (answered rest rxq packets r s) where
  busyPhase := h.busyPhase
  rxqBound := hlen.trans h.rxqBound
  txlenBound := h.txlenBound
  running hp := { h.running hp with }

/-- Legal widths leave a field at least one byte. -/
theorem fwidAt_pos {s : State} {n i : Nat} (h : WidthsLegal s n) (hi : i < n) :
    0 < (fwidAt s i).toNat := by
  rcases h i hi with e | e | e <;> rw [e] <;> decide

theorem fwidAt_le_four {s : State} {n i : Nat} (h : WidthsLegal s n) (hi : i < n) :
    (fwidAt s i).toNat ≤ 4 := by
  rcases h i hi with e | e | e <;> rw [e] <;> decide

/-- 43_transport.md R103: the budget is not spent, so one more attempt is within it. -/
theorem toNat_add_one_of_ne {k tries : Byte} (hle : k.toNat ≤ tries.toNat) (hne : k ≠ tries) :
    (k + 1).toNat = k.toNat + 1 ∧ k.toNat + 1 ≤ tries.toNat := by
  have hlt : k.toNat < tries.toNat := lt_of_le_of_ne hle fun h => hne (BitVec.eq_of_toNat_eq h)
  have hk : (k + 1).toNat = k.toNat + 1 := BitVec.toNat_add_of_lt (by have := tries.isLt; simp; omega)
  exact ⟨hk, hlt⟩

theorem Running.attemptOver {s t : State} (hr : Running s) (h : AttemptOver s t)
    (hphase : t.sq.phase ≠ .idle) : Running t := by
  cases h with
  | ended => exact absurd rfl hphase
  | again why info hk =>
    obtain ⟨hnext, hbudget⟩ := toNat_add_one_of_ne hr.budget hk
    exact { hr with
      attempts := rfl
      started := hnext.symm ▸ Nat.le_add_left 1 _
      budget := hnext.symm ▸ hbudget
      fresh := fun _ => ⟨rfl, rfl⟩
      ackOp := nofun
      rxOp := nofun
      field := nofun }

theorem Running.buildRequest {s : State} (hr : Running s) : Running (setPhase .tx (buildRequest s)) := by
  cases hop : s.sq.op with
  | xwr =>
    rw [buildRequest_of_xwr hop, xwrBuild_frame]
    exact { hr with fresh := nofun, ackOp := nofun, rxOp := nofun, field := nofun }
  | xrd =>
    rw [buildRequest_of_xrd hop, xrdBuild_frame]
    exact { hr with fresh := nofun, ackOp := nofun, rxOp := nofun, field := nofun }

theorem Running.startField {s : State} (hr : Running s) (hop : s.sq.op = .xrd) (i : BitVec 5) :
    Running (startField i s) := by
  obtain ⟨hi, h⟩ | ⟨hi, h⟩ := startField_cases i s
  · rw [h]
    exact { hr with
      fresh := nofun
      ackOp := nofun
      rxOp := fun _ => hop
      field := fun _ => ⟨hi, fwidAt_pos hr.widths hi, rfl⟩ }
  · rw [h]
    exact { hr with fresh := nofun, ackOp := nofun, rxOp := fun _ => hop, field := nofun }

/-- The phase from which a field starts does not matter. -/
theorem startField_setPhase (i : BitVec 5) (p : Phase) (s : State) :
    startField i (setPhase p s) = startField i s := rfl

theorem startField_phase (i : BitVec 5) (s : State) :
    (startField i s).sq.phase = .rxd ∨ (startField i s).sq.phase = .rxc0 := by
  obtain ⟨-, h⟩ | ⟨-, h⟩ := startField_cases i s <;> rw [h]
  · exact .inl rfl
  · exact .inr rfl

/-- The state in which field `i` is complete and staged (43_transport.md R115). -/
def fieldStaged (x : Byte) (s : State) : State :=
  { s with
    crc := crcStep s.crc x
    sq := { s.sq with
      rxb := s.sq.rxb ++ [x]
      j := s.sq.j + 1
      stg := s.sq.stg.setIfInBounds s.sq.i.toNat (beJoin (s.sq.rxb ++ [x])) } }

/-- The state in which field `i` has one more byte and waits for another (43_transport.md R115). -/
def fieldGoesOn (x : Byte) (s : State) : State :=
  { s with
    crc := crcStep s.crc x
    sq := { s.sq with rxb := s.sq.rxb ++ [x], j := s.sq.j + 1 } }

theorem fieldByte_of_more (x : Byte) {s : State}
    (h : s.sq.j.toNat + 1 < (fwidAt s s.sq.i.toNat).toNat) : fieldByte x s = fieldGoesOn x s := by
  obtain ⟨-, hf⟩ | ⟨hlast, -⟩ := fieldByte_cases x s
  · exact hf
  · exact absurd h hlast

theorem fieldByte_of_last (x : Byte) {s : State}
    (h : ¬ s.sq.j.toNat + 1 < (fwidAt s s.sq.i.toNat).toNat) :
    fieldByte x s = startField (s.sq.i + 1) (fieldStaged x s) := by
  obtain ⟨hmore, -⟩ | ⟨-, hf⟩ := fieldByte_cases x s
  · exact absurd hmore h
  · exact hf

/-- The counters of the field loop do not wrap (43_transport.md R115). -/
theorem Running.counters {s : State} (hr : Running s) (hp : s.sq.phase = .rxd) :
    (s.sq.i + 1).toNat = s.sq.i.toNat + 1 ∧ (s.sq.j + 1).toNat = s.sq.j.toNat + 1 := by
  obtain ⟨hi, hj, -⟩ := hr.field hp
  have hn := hr.fields
  have hw := fwidAt_le_four hr.widths hi
  exact ⟨BitVec.toNat_add_of_lt (by simp; omega), BitVec.toNat_add_of_lt (by simp; omega)⟩

theorem Running.fieldByte {s : State} (hr : Running s) (hp : s.sq.phase = .rxd) (x : Byte) :
    Running (fieldByte x s) := by
  have hop : s.sq.op = .xrd := hr.rxOp (.inl hp)
  obtain ⟨hi, hj, hlen⟩ := hr.field hp
  by_cases hmore : s.sq.j.toNat + 1 < (fwidAt s s.sq.i.toNat).toNat
  · rw [fieldByte_of_more x hmore]
    have hnext : (s.sq.j + 1).toNat = s.sq.j.toNat + 1 := (hr.counters hp).2
    exact { hr with
      fresh := fun h => nomatch hp.symm.trans h
      ackOp := fun h => nomatch hp.symm.trans h
      rxOp := fun _ => hop
      field := fun _ => ⟨hi, hnext.trans_lt hmore, by
        rw [fieldGoesOn, List.length_append, hlen, List.length_singleton, hnext]⟩ }
  · rw [fieldByte_of_last x hmore, ← startField_setPhase _ .tx]
    have hstaged : Running (setPhase .tx (fieldStaged x s)) :=
      { hr with fresh := nofun, ackOp := nofun, rxOp := nofun, field := nofun }
    exact hstaged.startField hop _

theorem Running.firstAttempt {s : State} {kind : Op} {kc : Byte} {n : BitVec 5} (hn : n.toNat ≤ 16)
    (hw : WidthsLegal s n.toNat) (hready : s.port.portcfg = .ready) (htries : s.cfg.tries ≠ 0) :
    Running (firstAttempt kind kc n s) where
  fields := hn
  widths := hw
  ready := hready
  attempts := rfl
  started := Nat.le_refl 1
  budget := Nat.pos_of_ne_zero fun h => htries (BitVec.eq_of_toNat_eq h)
  notDone := rfl
  noCode := rfl
  noInfo := rfl
  invalid h := if_pos h
  fresh _ := ⟨rfl, rfl⟩
  ackOp := nofun
  rxOp := nofun
  field := nofun

/-! ### What the output buffer and CRC hold -/

theorem OperandsKept.fwidAt {s t : State} (h : OperandsKept s t) (i : Nat) : fwidAt t i = fwidAt s i := by
  rw [Machine.fwidAt, Machine.fwidAt, h.fwid]

theorem writeBody_congr {s t : State} (hcfg : t.cfg = s.cfg) (hfval : t.fval = s.fval)
    (hfwid : t.fwid = s.fwid) (kc : Byte) (n : Nat) : writeBody t kc n = writeBody s kc n := by
  simp only [writeBody, payload, fvalAt, fwidAt, hcfg, hfval, hfwid]

theorem writeRequest_congr {s t : State} (hcfg : t.cfg = s.cfg) (hfval : t.fval = s.fval)
    (hfwid : t.fwid = s.fwid) (kc : Byte) (n : Nat) : writeRequest t kc n = writeRequest s kc n := by
  rw [writeRequest, writeRequest, writeBody_congr hcfg hfval hfwid]

theorem OperandsKept.writeBody {s t : State} (h : OperandsKept s t) (kc : Byte) (n : Nat) :
    writeBody t kc n = writeBody s kc n := writeBody_congr h.cfg h.fval h.fwid kc n

theorem OperandsKept.writeRequest {s t : State} (h : OperandsKept s t) (kc : Byte) (n : Nat) :
    writeRequest t kc n = writeRequest s kc n := writeRequest_congr h.cfg h.fval h.fwid kc n

theorem OperandsKept.readRequest {s t : State} (h : OperandsKept s t) (kc : Byte) :
    readRequest t kc = readRequest s kc := by
  rw [Machine.readRequest, Machine.readRequest, h.cfg]

theorem OperandsKept.responseHeader {s t : State} (h : OperandsKept s t) (kc : Byte) :
    responseHeader t kc = responseHeader s kc := by
  rw [Machine.responseHeader, Machine.responseHeader, h.cfg, h.build]

/-- From an empty output buffer and the seed, the build leaves the write request alone in the buffer and its
checksum in CRC (43_transport.md R108). -/
theorem xwrBuild_bytes {s : State} (hr : Running s) (hp : s.sq.phase = .flush) :
    request (xwrBuild s) = writeRequest s s.sq.kc s.sq.n.toNat
      ∧ (xwrBuild s).crc = crcBytes 0x0000 (writeBody s s.sq.kc s.sq.n.toNat)
      ∧ (xwrBuild s).txlen.toNat ≤ 68 := by
  obtain ⟨htx, hcrc⟩ := hr.fresh hp
  have happ := txAppended_xwrBuild htx hcrc hr.fields hr.widths
  have hlen := happ.length
  have hzero : s.txlen.toNat = 0 := congrArg BitVec.toNat htx
  have hsum := widthSum_le hr.widths
  have hfields := hr.fields
  rw [length_writeRequest _ hr.widths] at hlen
  refine ⟨?_, ?_, by omega⟩
  · rw [happ.valid, request_of_txlen_zero htx, List.nil_append]
  · rw [xwrBuild_frame, hcrc]

/-- The build leaves the read request alone in the buffer (43_transport.md R113). -/
theorem xrdBuild_bytes (s : State) :
    request (xrdBuild s) = readRequest s s.sq.kc
      ∧ (xrdBuild s).crc = crcBytes 0x0000 (responseHeader s s.sq.kc)
      ∧ (xrdBuild s).txlen.toNat ≤ 68 := by
  refine ⟨?_, ?_, Nat.le_of_ble_eq_true rfl⟩
  · rw [(txAppended_xrdBuild s).valid, request_of_txlen_zero (s := { s with txlen := 0 }) rfl,
      List.nil_append]
  · rw [xrdBuild_frame]

theorem buildRequest_txlen_le {s : State} (hr : Running s) (hp : s.sq.phase = .flush) :
    (buildRequest s).txlen.toNat ≤ 68 := by
  cases hop : s.sq.op with
  | xwr => rw [buildRequest_of_xwr hop]; exact (xwrBuild_bytes hr hp).2.2
  | xrd => rw [buildRequest_of_xrd hop]; exact (xrdBuild_bytes s).2.2

theorem startField_txlen (i : BitVec 5) (s : State) : (startField i s).txlen = s.txlen := by
  obtain ⟨-, h⟩ | ⟨-, h⟩ := startField_cases i s <;> rw [h]

theorem startField_status (i : BitVec 5) (s : State) : (startField i s).status = s.status := by
  obtain ⟨-, h⟩ | ⟨-, h⟩ := startField_cases i s <;> rw [h]

theorem State.Inv.attemptOver {s t : State} (h : State.Inv s) (hr : Running s)
    (hover : AttemptOver s t) (hbusy : s.status.busy = true) : State.Inv t := by
  cases hover with
  | ended => exact inv_of_idle rfl rfl h.rxqBound h.txlenBound
  | again why info hk =>
    exact inv_of_running nofun hbusy h.rxqBound (Nat.zero_le _) (hr.attemptOver (.again why info hk) nofun)

theorem fieldByte_phase (x : Byte) {s : State} (hp : s.sq.phase = .rxd) :
    (fieldByte x s).sq.phase = .rxd ∨ (fieldByte x s).sq.phase = .rxc0 := by
  by_cases hmore : s.sq.j.toNat + 1 < (fwidAt s s.sq.i.toNat).toNat
  · rw [fieldByte_of_more x hmore]
    exact .inl hp
  · rw [fieldByte_of_last x hmore]
    exact startField_phase ..

theorem fieldByte_status (x : Byte) (s : State) : (fieldByte x s).status = s.status := by
  obtain ⟨-, h⟩ | ⟨-, h⟩ := fieldByte_cases x s <;> rw [h]
  exact startField_status ..

theorem fieldByte_txlen (x : Byte) (s : State) : (fieldByte x s).txlen = s.txlen := by
  obtain ⟨-, h⟩ | ⟨-, h⟩ := fieldByte_cases x s <;> rw [h]
  exact startField_txlen ..

theorem buildRequest_status (s : State) : (buildRequest s).status = s.status := by
  cases hop : s.sq.op with
  | xwr => rw [buildRequest_of_xwr hop, xwrBuild_frame]
  | xrd => rw [buildRequest_of_xrd hop, xrdBuild_frame]

theorem ne_idle_of_receiving {p : Phase} (h : p = .rxd ∨ p = .rxc0) : p ≠ .idle := by
  obtain rfl | rfl := h <;> decide

theorem State.Inv.answerEffect {s t : State} (h : State.Inv s) (hphase : s.sq.phase ≠ .idle)
    (heff : AnswerEffect s t) : State.Inv t := by
  have hr : Running s := h.running hphase
  have hbusy : s.status.busy = true := h.busyPhase.mpr hphase
  have hrxq : t.port.rxq.length ≤ t.build.rxDepth := by
    rw [heff.operandsKept.port, heff.operandsKept.build]
    exact h.rxqBound
  cases heff with
  | failed tof rxcrc hover =>
    have hread : State.Inv (withRead tof rxcrc s) := { h with running := fun hp => { h.running hp with } }
    exact hread.attemptOver (hread.running hphase) hover hbusy
  | built hp =>
    exact inv_of_running nofun ((congrArg Status.busy (buildRequest_status s)).trans hbusy) hrxq
      (buildRequest_txlen_le hr hp) hr.buildRequest
  | written hp hop =>
    exact inv_of_running nofun hbusy hrxq h.txlenBound
      { hr with fresh := nofun, ackOp := fun _ => hop, rxOp := nofun, field := nofun }
  | asked hp hop =>
    exact inv_of_running (ne_idle_of_receiving (startField_phase 0 s))
      ((congrArg Status.busy (startField_status 0 s)).trans hbusy) hrxq
      ((startField_txlen 0 s).symm ▸ h.txlenBound) (hr.startField hop 0)
  | acked => exact inv_of_idle rfl rfl hrxq h.txlenBound
  | field x tof hp =>
    have hread : Running (withRead tof s.sq.rxcrc s) := { hr with }
    exact inv_of_running (ne_idle_of_receiving (fieldByte_phase x hp))
      ((congrArg Status.busy (fieldByte_status x _)).trans hbusy) hrxq
      ((fieldByte_txlen x (withRead tof s.sq.rxcrc s)).symm ▸ h.txlenBound) (hread.fieldByte hp x)
  | high x tof hp =>
    exact inv_of_running nofun hbusy hrxq h.txlenBound
      { hr with fresh := nofun, ackOp := nofun, rxOp := fun _ => hr.rxOp (.inr (.inl hp)), field := nofun }
  | verified => exact inv_of_idle rfl rfl hrxq h.txlenBound

theorem State.Inv.writeEffect {off : Nat} {v : Word} {s t : State} (h : State.Inv s)
    (heff : WriteEffect off v s t) : State.Inv t := by
  cases heff with
  | flag => exact { h with running := fun hp => { h.running hp with } }
  | operand _ _ _ _ _ hbusy =>
    exact inv_of_idle (h.idle_of_not_busy hbusy) hbusy h.rxqBound h.txlenBound
  | codec | illegal | refusedTransport => exact inv_of_idle rfl rfl h.rxqBound h.txlenBound
  | transport kind kc n _ _ _ hn hw hready htries =>
    exact inv_of_running nofun rfl h.rxqBound (Nat.zero_le _) (.firstAttempt hn hw hready htries)

theorem State.Inv.stepEffect {s t : State} (h : State.Inv s) (heff : StepEffect s t) : State.Inv t := by
  cases heff with
  | waits => exact h
  | read => exact { h with running := fun hp => { h.running hp with } }
  | @write off v rest _ hin hw =>
    have htaken : State.Inv { s with inputs := rest } :=
      { h with running := fun hp => { h.running hp with } }
    exact htaken.writeEffect hw
  | device _ rxq hlen =>
    exact { h with rxqBound := hlen h.rxqBound, running := fun hp => { h.running hp with } }
  | answer _ hphase _ _ _ hlen _ hans => exact (h.answered hlen).answerEffect hphase hans
  | reset => exact inv_of_idle rfl rfl (List.length_take_le _ _) (Nat.zero_le _)

/-! ### What an attempt has sent and folded -/

theorem attemptBytes_of_phase {s : State} (h : s.sq.phase = .idle ∨ s.sq.phase = .flush) :
    AttemptBytes s := by
  obtain h | h := h <;> constructor <;> rw [h] <;> simp

theorem request_congr {s t : State} (hbuf : t.txbuf = s.txbuf) (hlen : t.txlen = s.txlen) :
    request t = request s := by rw [request, request, hbuf, hlen]

theorem AttemptBytes.buildRequest {s : State} (hr : Running s) (hp : s.sq.phase = .flush) :
    AttemptBytes (setPhase .tx (buildRequest s)) := by
  have hkept := operandsKept_buildRequest s
  constructor
  case writing =>
    intro _ hop'
    have hop : s.sq.op = .xwr := hkept.op.symm.trans hop'
    obtain ⟨hreq, hcrc, -⟩ := xwrBuild_bytes hr hp
    rw [hkept.kc, hkept.n, hkept.writeRequest, hkept.writeBody, buildRequest_of_xwr hop]
    exact ⟨hreq, hcrc⟩
  case asking =>
    intro _ hop'
    have hop : s.sq.op = .xrd := hkept.op.symm.trans hop'
    obtain ⟨hreq, hcrc, -⟩ := xrdBuild_bytes s
    rw [hkept.kc, hkept.readRequest, hkept.responseHeader, buildRequest_of_xrd hop]
    exact ⟨hreq, hcrc⟩
  case receiving => nofun
  case checking => nofun

/-- Where a field starts, CRC covers the fields before it (43_transport.md R115). -/
theorem AttemptBytes.startField {s : State} {i : BitVec 5} (hi : i.toNat ≤ s.sq.n.toNat)
    (hreq : request s = readRequest s s.sq.kc)
    (hcrc : s.crc = crcBytes 0x0000 (responseHeader s s.sq.kc ++ receivedBytes s i.toNat)) :
    AttemptBytes (startField i s) := by
  obtain ⟨hlt, h⟩ | ⟨hge, h⟩ := startField_cases i s
  · rw [h]
    refine ⟨nofun, nofun, fun _ => ⟨hreq, ?_⟩, nofun⟩
    rw [List.append_nil]
    exact hcrc
  · rw [h]
    have hall : s.sq.n.toNat = i.toNat := by omega
    refine ⟨nofun, nofun, nofun, fun _ => ⟨hreq, ?_⟩⟩
    exact hcrc.trans
      (congrArg (fun m => crcBytes 0x0000 (responseHeader s s.sq.kc ++ receivedBytes s m)) hall.symm)

/-- The complete field adds its bytes to those that the staged values give (43_transport.md R115). -/
theorem receivedBytes_fieldStaged {s : State} (hr : Running s) (hp : s.sq.phase = .rxd) (x : Byte)
    (hlast : ¬ s.sq.j.toNat + 1 < (fwidAt s s.sq.i.toNat).toNat) :
    receivedBytes (fieldStaged x s) (s.sq.i.toNat + 1) =
      receivedBytes s s.sq.i.toNat ++ (s.sq.rxb ++ [x]) := by
  obtain ⟨hi, hj, hlen⟩ := hr.field hp
  have hn := hr.fields
  have hwidth : (fwidAt s s.sq.i.toNat).toNat = (s.sq.rxb ++ [x]).length := by
    rw [List.length_append, List.length_singleton]
    omega
  have hlegal : (s.sq.rxb ++ [x]).length = 1 ∨ (s.sq.rxb ++ [x]).length = 2
      ∨ (s.sq.rxb ++ [x]).length = 4 := by
    rw [← hwidth]
    rcases hr.widths _ hi with e | e | e <;> rw [e] <;> decide
  have hstaged : stgAt (fieldStaged x s) s.sq.i.toNat = beJoin (s.sq.rxb ++ [x]) := by
    rw [stgAt, fieldStaged, Vector.getElem?_setIfInBounds_self_of_lt (by omega)]
    rfl
  have hbelow (q : Nat) (hq : q < s.sq.i.toNat) : stgAt (fieldStaged x s) q = stgAt s q := by
    rw [stgAt, fieldStaged, Vector.getElem?_setIfInBounds_ne (by omega), stgAt]
  have hbytes : beBytes (stgAt (fieldStaged x s) s.sq.i.toNat) (fwidAt s s.sq.i.toNat).toNat =
      s.sq.rxb ++ [x] := by
    rw [hstaged, hwidth, beBytes_beJoin hlegal]
  have hfirst : (List.range s.sq.i.toNat).flatMap
      (fun q => beBytes (stgAt (fieldStaged x s) q) (fwidAt s q).toNat) =
        receivedBytes s s.sq.i.toNat := by
    refine List.flatMap_congr fun q hq => ?_
    rw [hbelow q (List.mem_range.mp hq)]
  calc receivedBytes (fieldStaged x s) (s.sq.i.toNat + 1)
      = (List.range s.sq.i.toNat).flatMap
          (fun q => beBytes (stgAt (fieldStaged x s) q) (fwidAt s q).toNat)
        ++ beBytes (stgAt (fieldStaged x s) s.sq.i.toNat) (fwidAt s s.sq.i.toNat).toNat := by
        rw [receivedBytes, List.range_succ, List.flatMap_append, List.flatMap_singleton]
        rfl
    _ = _ := by rw [hfirst, hbytes]

theorem AttemptBytes.fieldByte {s : State} (h : AttemptBytes s) (hr : Running s)
    (hp : s.sq.phase = .rxd) (x : Byte) : AttemptBytes (fieldByte x s) := by
  obtain ⟨hreq, hcrc⟩ := h.receiving hp
  obtain ⟨hi, -, -⟩ := hr.field hp
  have hfold : crcStep s.crc x = crcBytes 0x0000
      (responseHeader s s.sq.kc ++ receivedBytes s s.sq.i.toNat ++ (s.sq.rxb ++ [x])) := by
    rw [← List.append_assoc, crcBytes_append, ← hcrc]
    rfl
  by_cases hmore : s.sq.j.toNat + 1 < (fwidAt s s.sq.i.toNat).toNat
  · rw [fieldByte_of_more x hmore]
    exact ⟨fun hp' => by simp [fieldGoesOn, hp] at hp', fun hp' => by simp [fieldGoesOn, hp] at hp',
      fun _ => ⟨hreq, hfold⟩, fun hp' => by simp [fieldGoesOn, hp] at hp'⟩
  · rw [fieldByte_of_last x hmore]
    have hnext := (hr.counters hp).1
    refine AttemptBytes.startField (s := fieldStaged x s) (hnext.trans_le hi) hreq ?_
    rw [hnext, receivedBytes_fieldStaged hr hp x hmore, ← List.append_assoc]
    exact hfold

theorem AttemptBytes.answerEffect {s t : State} (h : AttemptBytes s) (hr : Running s)
    (heff : AnswerEffect s t) : AttemptBytes t := by
  cases heff with
  | failed _ _ hover =>
    cases hover with
    | ended => exact attemptBytes_of_phase (.inl rfl)
    | again => exact attemptBytes_of_phase (.inr rfl)
  | built hp => exact .buildRequest hr hp
  | written hp hop => exact ⟨fun _ _ => h.writing (.inl hp) hop, nofun, nofun, nofun⟩
  | asked hp hop =>
    obtain ⟨hreq, hcrc⟩ := h.asking hp hop
    refine .startField (Nat.zero_le _) hreq (hcrc.trans ?_)
    exact congrArg (crcBytes 0x0000) (List.append_nil _).symm
  | acked | verified => exact attemptBytes_of_phase (.inl rfl)
  | field x tof hp =>
    have hread : AttemptBytes (withRead tof s.sq.rxcrc s) := { h with }
    exact hread.fieldByte { hr with } hp x
  | high x tof hp => exact ⟨nofun, nofun, nofun, fun _ => h.checking (.inl hp)⟩

theorem AttemptBytes.stepEffect {s t : State} (h : AttemptBytes s) (hinv : State.Inv s)
    (heff : StepEffect s t) : AttemptBytes t := by
  cases heff with
  | waits => exact h
  | read | device => exact { h with }
  | write _ hw =>
    cases hw with
    | flag => exact { h with }
    | operand _ _ _ _ _ hbusy => exact attemptBytes_of_phase (.inl (hinv.idle_of_not_busy hbusy))
    | codec | illegal | refusedTransport => exact attemptBytes_of_phase (.inl rfl)
    | transport => exact attemptBytes_of_phase (.inr rfl)
  | @answer _ rest _ _ hphase rxq packets r hlen _ hans =>
    have hrec : AttemptBytes (answered rest rxq packets r s) := { h with }
    exact hrec.answerEffect ((hinv.answered hlen).running hphase) hans
  | reset => exact attemptBytes_of_phase (.inl rfl)

/-! ### The stream operations left -/

theorem widthSumFrom_of_lt {s : State} {i n : Nat} (h : i < n) :
    widthSumFrom s i n = (fwidAt s i).toNat + widthSumFrom s (i + 1) n := by
  obtain ⟨m, hm⟩ : ∃ m, n - i = m + 1 := ⟨n - i - 1, by omega⟩
  have hm' : n - (i + 1) = m := by omega
  rw [widthSumFrom, widthSumFrom, hm, hm', List.range'_succ, List.map_cons, List.sum_cons]

theorem widthSumFrom_of_ge {s : State} {i n : Nat} (h : n ≤ i) : widthSumFrom s i n = 0 := by
  rw [widthSumFrom, Nat.sub_eq_zero_of_le h]
  rfl

theorem opsPerAttempt_of_xwr {s : State} (h : s.sq.op = .xwr) : opsPerAttempt s = 3 := by
  rw [opsPerAttempt, h]

theorem opsPerAttempt_of_xrd {s : State} (h : s.sq.op = .xrd) :
    opsPerAttempt s = 4 + widthSum s s.sq.n.toNat := by
  rw [opsPerAttempt, h]

theorem opsPerAttempt_ge (s : State) : 3 ≤ opsPerAttempt s := by
  cases h : s.sq.op with
  | xwr => rw [opsPerAttempt_of_xwr h]
  | xrd => rw [opsPerAttempt_of_xrd h]; omega

theorem OperandsKept.widthSumFrom {s t : State} (h : OperandsKept s t) (i n : Nat) :
    widthSumFrom t i n = widthSumFrom s i n := by
  simp only [Machine.widthSumFrom, h.fwidAt]

theorem OperandsKept.opsPerAttempt {s t : State} (h : OperandsKept s t) :
    opsPerAttempt t = opsPerAttempt s := by
  rw [Machine.opsPerAttempt, Machine.opsPerAttempt, h.op, h.n, widthSum, widthSum, h.widthSumFrom]

theorem opsLeft_of_idle {s : State} (h : s.sq.phase = .idle) : opsLeft s = 0 := by rw [opsLeft, h]

theorem opsLeft_of_running {s : State} (h : s.sq.phase ≠ .idle) :
    opsLeft s = (s.cfg.tries.toNat - s.sq.k.toNat) * opsPerAttempt s + opsInAttempt s := by
  unfold opsLeft
  cases hp : s.sq.phase with
  | idle => exact absurd hp h
  | _ => rfl

theorem opsInAttempt_of_flush {s : State} (h : s.sq.phase = .flush) :
    opsInAttempt s = opsPerAttempt s := by rw [opsInAttempt, h]

theorem opsInAttempt_of_tx {s : State} (h : s.sq.phase = .tx) :
    opsInAttempt s = opsPerAttempt s - 1 := by rw [opsInAttempt, h]

theorem opsInAttempt_of_ack {s : State} (h : s.sq.phase = .ack) : opsInAttempt s = 1 := by
  rw [opsInAttempt, h]

theorem opsInAttempt_of_rxd {s : State} (h : s.sq.phase = .rxd) :
    opsInAttempt s = widthSumFrom s s.sq.i.toNat s.sq.n.toNat - s.sq.j.toNat + 2 := by
  rw [opsInAttempt, h]

theorem opsInAttempt_of_rxc0 {s : State} (h : s.sq.phase = .rxc0) : opsInAttempt s = 2 := by
  rw [opsInAttempt, h]

theorem opsInAttempt_of_rxc1 {s : State} (h : s.sq.phase = .rxc1) : opsInAttempt s = 1 := by
  rw [opsInAttempt, h]

theorem opsInAttempt_pos {s : State} (h : s.sq.phase ≠ .idle) : 0 < opsInAttempt s := by
  have hper := opsPerAttempt_ge s
  unfold opsInAttempt
  cases hp : s.sq.phase with
  | idle => exact absurd hp h
  | _ => dsimp only; omega

theorem opsLeft_pos {s : State} (h : s.sq.phase ≠ .idle) : 0 < opsLeft s := by
  rw [opsLeft_of_running h]
  exact Nat.add_pos_right _ (opsInAttempt_pos h)

/-- Within an attempt the measure counts the operations of the attempt. -/
theorem opsLeft_of_same_attempt {s t : State} (hkept : OperandsKept s t) (hk : t.sq.k = s.sq.k)
    (hs : s.sq.phase ≠ .idle) (ht : t.sq.phase ≠ .idle) (h : opsInAttempt t + 1 = opsInAttempt s) :
    opsLeft t + 1 = opsLeft s := by
  rw [opsLeft_of_running hs, opsLeft_of_running ht, hkept.cfg, hk, hkept.opsPerAttempt, ← h]
  rfl

theorem buildRequest_k (s : State) : (buildRequest s).sq.k = s.sq.k := by
  cases hop : s.sq.op with
  | xwr => rw [buildRequest_of_xwr hop, xwrBuild_frame]
  | xrd => rw [buildRequest_of_xrd hop, xrdBuild_frame]

theorem startField_k (i : BitVec 5) (s : State) : (startField i s).sq.k = s.sq.k := by
  obtain ⟨-, h⟩ | ⟨-, h⟩ := startField_cases i s <;> rw [h]

theorem fieldByte_k (x : Byte) (s : State) : (fieldByte x s).sq.k = s.sq.k := by
  obtain ⟨-, h⟩ | ⟨-, h⟩ := fieldByte_cases x s <;> rw [h]
  exact startField_k ..

theorem opsLeft_buildRequest {s : State} (hp : s.sq.phase = .flush) :
    opsLeft (setPhase .tx (buildRequest s)) + 1 = opsLeft s := by
  have hkept := operandsKept_buildRequest s
  refine opsLeft_of_same_attempt hkept (buildRequest_k s) (by simp [hp]) nofun ?_
  have hper := opsPerAttempt_ge s
  rw [opsInAttempt_of_tx rfl, opsInAttempt_of_flush hp, hkept.opsPerAttempt]
  omega

/-- 70_reset_and_hazards.md R172: the bytes of the fields from `i` on, and the checksum. -/
theorem opsInAttempt_startField (i : BitVec 5) (s : State) :
    opsInAttempt (startField i s) = widthSumFrom s i.toNat s.sq.n.toNat + 2 := by
  obtain ⟨hlt, h⟩ | ⟨hge, h⟩ := startField_cases i s
  · rw [h, opsInAttempt_of_rxd rfl]
    rfl
  · rw [h, opsInAttempt_of_rxc0 rfl, widthSumFrom_of_ge (Nat.not_lt.mp hge)]

theorem opsLeft_asked {s : State} (hp : s.sq.phase = .tx) (hop : s.sq.op = .xrd) :
    opsLeft (startField 0 s) + 1 = opsLeft s := by
  refine opsLeft_of_same_attempt (operandsKept_startField 0 s) (startField_k 0 s) (by simp [hp])
    (ne_idle_of_receiving (startField_phase 0 s)) ?_
  have hsum : widthSumFrom s (0 : BitVec 5).toNat s.sq.n.toNat = widthSum s s.sq.n.toNat := rfl
  rw [opsInAttempt_startField, opsInAttempt_of_tx hp, opsPerAttempt_of_xrd hop, hsum]
  omega

theorem opsLeft_fieldByte {s : State} (hr : Running s) (hp : s.sq.phase = .rxd) (x : Byte) :
    opsLeft (fieldByte x s) + 1 = opsLeft s := by
  obtain ⟨hi, hj, -⟩ := hr.field hp
  obtain ⟨hinext, hjnext⟩ := hr.counters hp
  refine opsLeft_of_same_attempt (operandsKept_fieldByte x s) (fieldByte_k x s) (by simp [hp])
    (ne_idle_of_receiving (fieldByte_phase x hp)) ?_
  rw [opsInAttempt_of_rxd hp, widthSumFrom_of_lt hi]
  by_cases hmore : s.sq.j.toNat + 1 < (fwidAt s s.sq.i.toNat).toNat
  · have hrest : opsInAttempt (fieldGoesOn x s) =
        widthSumFrom s s.sq.i.toNat s.sq.n.toNat - (s.sq.j + 1).toNat + 2 := opsInAttempt_of_rxd hp
    rw [fieldByte_of_more x hmore, hrest, hjnext, widthSumFrom_of_lt hi]
    omega
  · have hrest : opsInAttempt (startField (s.sq.i + 1) (fieldStaged x s)) =
        widthSumFrom s (s.sq.i + 1).toNat s.sq.n.toNat + 2 := opsInAttempt_startField _ _
    rw [fieldByte_of_last x hmore, hrest, hinext]
    omega

/-- A failed attempt gives up what is left of it, and the next one has its full number. -/
theorem opsLeft_retried {s : State} (hr : Running s) (hp : s.sq.phase ≠ .idle) (why : LastFail)
    (info : Word) (hk : s.sq.k ≠ s.cfg.tries) :
    opsLeft (retried why info s) + opsInAttempt s = opsLeft s := by
  have hkept := (AttemptOver.again why info hk).operandsKept
  obtain ⟨hnext, hbudget⟩ := toNat_add_one_of_ne hr.budget hk
  obtain ⟨m, hm⟩ : ∃ m, s.cfg.tries.toNat - s.sq.k.toNat = m + 1 := ⟨_, (Nat.succ_pred (by omega)).symm⟩
  have hm' : s.cfg.tries.toNat - (s.sq.k + 1).toNat = m := by omega
  have hleft := opsLeft_of_running (s := retried why info s) nofun
  rw [opsInAttempt_of_flush rfl, hkept.opsPerAttempt] at hleft
  rw [opsLeft_of_running hp, hm, hleft, Nat.succ_mul]
  exact congrArg (· * opsPerAttempt s + opsPerAttempt s + opsInAttempt s) hm'

theorem opsLeft_attemptOver {s t : State} (hr : Running s) (hp : s.sq.phase ≠ .idle)
    (hover : AttemptOver s t) : opsLeft t + opsInAttempt s ≤ opsLeft s := by
  cases hover with
  | ended => rw [opsLeft_of_idle rfl, opsLeft_of_running hp]; omega
  | again why info hk => exact (opsLeft_retried hr hp why info hk).le

theorem AnswerEffect.opsLeft_lt {s t : State} (hr : Running s) (hphase : s.sq.phase ≠ .idle)
    (h : AnswerEffect s t) : opsLeft t < opsLeft s := by
  cases h with
  | failed tof rxcrc hover =>
    have hread : Running (withRead tof rxcrc s) := { hr with }
    have hle := opsLeft_attemptOver hread hphase hover
    have hpos := opsInAttempt_pos hphase
    exact Nat.lt_of_lt_of_le (Nat.lt_add_of_pos_right hpos) hle
  | built hp => exact (opsLeft_buildRequest hp).le
  | written hp hop =>
    refine (opsLeft_of_same_attempt (s := s) (t := setPhase .ack s) ?_ rfl hphase nofun ?_).le
    · exact (AnswerEffect.written hp hop).operandsKept
    · rw [opsInAttempt_of_ack rfl, opsInAttempt_of_tx hp, opsPerAttempt_of_xwr hop]
  | asked hp hop => exact (opsLeft_asked hp hop).le
  | acked | verified => rw [opsLeft_of_idle rfl]; exact opsLeft_pos hphase
  | field x tof hp =>
    have hread : Running (withRead tof s.sq.rxcrc s) := { hr with }
    exact (opsLeft_fieldByte hread hp x).le
  | high x tof hp =>
    refine (opsLeft_of_same_attempt (s := s) (t := crcHighByte x (withRead tof s.sq.rxcrc s)) ?_ rfl hphase
      nofun ?_).le
    · exact (AnswerEffect.high x tof hp).operandsKept
    · rw [opsInAttempt_of_rxc0 hp, opsInAttempt_of_rxc1 rfl]

theorem opsLeft_firstAttempt {s : State} {kind : Op} {kc : Byte} {n : BitVec 5}
    (htries : s.cfg.tries ≠ 0) :
    opsLeft (firstAttempt kind kc n s) =
      s.cfg.tries.toNat * opsPerAttempt (firstAttempt kind kc n s) := by
  obtain ⟨m, hm⟩ : ∃ m, s.cfg.tries.toNat = m + 1 :=
    ⟨_, (Nat.succ_pred fun h => htries (BitVec.eq_of_toNat_eq h)).symm⟩
  have hleft : (firstAttempt kind kc n s).cfg.tries.toNat - (firstAttempt kind kc n s).sq.k.toNat = m := by
    change s.cfg.tries.toNat - 1 = m
    omega
  rw [opsLeft_of_running (s := firstAttempt kind kc n s) nofun, opsInAttempt_of_flush rfl, hleft, hm,
    Nat.succ_mul]

/-- A transport command that is issued has at most the operations of all its attempts before it
(70_reset_and_hazards.md R172). -/
theorem opsLeft_exec_transport {s t : State} {kind : Op} {kc : Byte} {n : BitVec 5}
    (hbusy : s.status.busy = false) (h : exec (kind.instr kc n) s = .next t) :
    opsLeft t ≤ s.cfg.tries.toNat * opsPerAttempt (firstAttempt kind kc n s) := by
  by_cases hn : n.toNat ≤ 16
  · have hnext := (exec_transport_of_idle kind kc hbusy hn).symm.trans h
    obtain ⟨e, info, -, hend⟩ | ⟨-, -, htries, hstart⟩ := acceptTransport_accept_cases kind kc n s
    · rw [hend] at hnext
      cases hnext
      exact Nat.zero_le _
    · rw [hstart] at hnext
      cases hnext
      exact (opsLeft_firstAttempt htries).le
  · have hwf : (kind.instr kc n).wf = false := (kind.instr_wf kc n).trans (decide_eq_false hn)
    have hill : exec (kind.instr kc n) s = .next (illegalCommand (encode (kind.instr kc n)) s) := by
      cases kind <;> exact if_neg (Bool.eq_false_iff.mp hwf)
    rw [hill, illegalCommand_of_idle _ hbusy] at h
    cases h
    exact Nat.zero_le _

end Sys2Proof.Machine

namespace Sys2Proof.Proofs

open Sys2Proof.Machine

/-- Settles O51, effect by effect: within a running command the counters stay in their bounds, and every
other effect leaves or reaches IDLE. -/
theorem stepKeepsSequencerInvariant : Obligations.StepKeepsSequencerInvariant :=
  fun _ _ hinv hstep => hinv.stepEffect (stepEffect_of_step hstep)

/-- Settles O52, effect by effect: a byte that is folded joins the field being received, and a complete field
joins the staged ones. -/
theorem stepKeepsAttemptBytes : Obligations.StepKeepsAttemptBytes :=
  fun _ _ hinv hbytes hstep => hbytes.stepEffect hinv (stepEffect_of_step hstep)

/-- Settles O57: an answer ends a running command in an error only by a failed attempt, which writes neither
RES nor RVALID. -/
theorem failedReadLeavesNoResult : Obligations.FailedReadLeavesNoResult := by
  intro s t hinv hstep hphase hop hreset hend hcode
  have hinvalid : s.status.rvalid = false := (hinv.running hphase).invalid hop
  cases stepEffect_of_step hstep with
  | waits | read | device => exact absurd hend hphase
  | write _ h =>
    obtain ⟨ovr, rfl⟩ := h.eq_of_busy (hinv.busyPhase.mpr hphase)
    exact absurd hend hphase
  | answer _ _ _ _ _ _ _ h =>
    cases h with
    | failed _ _ h =>
      cases h with
      | ended => exact ⟨rfl, hinvalid⟩
      | again => cases hend
    | built | written | high => cases hend
    | asked => exact absurd hend (ne_idle_of_receiving (startField_phase ..))
    | field x tof hp => exact absurd hend (ne_idle_of_receiving (fieldByte_phase x hp))
    | acked | verified => exact absurd rfl hcode
  | reset hin => exact absurd hin (hreset _ _ _)

/-- Settles O58: the measure starts at the operations of all attempts, each effect of an answer lowers it,
and while a command runs no other effect but reset reaches the sequencer. -/
theorem streamOperationsAreBounded : Obligations.StreamOperationsAreBounded := by
  refine ⟨fun s t kc n _ hbusy => ⟨fun h => ?xwr, fun h => ?xrd⟩, fun s a hinv hphase => ?answer,
    fun s hinv => ?zero, fun s t hinv hphase hstep hanswer hreset => ?other⟩
  case xwr =>
    rw [Nat.mul_comm]
    exact opsLeft_exec_transport (kind := .xwr) hbusy h
  case xrd => exact opsLeft_exec_transport (kind := .xrd) hbusy h
  case answer =>
    obtain ⟨t, ht, heff⟩ := onAnswer_effect a hphase
    obtain ⟨rxq, packets, r, hlen, -, hop⟩ := operated_cases a hphase
    have hrec : operated a s = answered s.inputs rxq packets r s := hop
    rw [hrec] at heff
    have hlt := heff.opsLeft_lt ((hinv.answered hlen).running hphase) hphase
    exact ⟨t, ht, hlt⟩
  case zero =>
    refine ⟨fun hzero => ?_, opsLeft_of_idle⟩
    by_contra hphase
    exact (opsLeft_pos hphase).ne' hzero
  case other =>
    cases stepEffect_of_step hstep with
    | waits | read | device => exact ⟨rfl, rfl, rfl⟩
    | write _ h =>
      obtain ⟨ovr, rfl⟩ := h.eq_of_busy (hinv.busyPhase.mpr hphase)
      exact ⟨rfl, rfl, rfl⟩
    | answer hin => exact absurd hin (hanswer _ _)
    | reset hin => exact absurd hin (hreset _ _ _)

end Sys2Proof.Proofs
end

section
/-! SUPPORT and RESULTS. The steps of an attempt one by one: the read of a byte, the next attempt, the write,
the field loop and the first checksum byte (O29, O36, O40, O42, O43); reset (O49, O50). -/

namespace Sys2Proof.Machine

/-! ### A response byte -/

/-- The byte `x` that a read which does not fail yields, `late` saying that it timed out: 0x00 when the input
buffer is empty, else its head (43_transport.md R112). -/
def ReadYields (s : State) (x : Byte) (late : Bool) : Prop :=
  (s.port.rxq = [] ∧ x = 0x00 ∧ late = true)
    ∨ (s.port.rxq = x :: s.port.rxq.tail ∧ late = false)

/-- The state when the byte has been read, with the timeout noted. -/
def byteRead (x : Byte) (late : Bool) (s : State) : State :=
  { s with
    port := { s.port with rxq := s.port.rxq.tail }
    txlog := { s.txlog with
      answers := s.txlog.answers ++ [if late then .readTimeout else .readByte x] }
    sq := { s.sq with tof := s.sq.tof || late } }

theorem readOrZero_ok {s : State} {x : Byte} {late : Bool} (got : Byte → State → State)
    (h : ReadYields s x late) : readOrZero got .ok s = got x (byteRead x late s) := by
  obtain ⟨hrxq, rfl, rfl⟩ | ⟨hrxq, rfl⟩ := h
  · have htail : s.port.rxq.tail = s.port.rxq := by rw [hrxq, List.tail_nil]
    rw [readOrZero, streamRead1_ok_of_nil hrxq, byteRead, htail, Bool.or_true]
    rfl
  · rw [readOrZero, streamRead1_ok_of_cons hrxq, byteRead, Bool.or_false]
    rfl

theorem onAnswer_rxd_ok {s : State} {x : Byte} {late : Bool} (hp : s.sq.phase = .rxd)
    (h : ReadYields s x late) : onAnswer .ok s = .next (fieldByte x (byteRead x late s)) := by
  rw [onAnswer, hp, ← readOrZero_ok fieldByte h]

theorem onAnswer_rxc0_ok {s : State} {x : Byte} {late : Bool} (hp : s.sq.phase = .rxc0)
    (h : ReadYields s x late) : onAnswer .ok s = .next (crcHighByte x (byteRead x late s)) := by
  rw [onAnswer, hp, ← readOrZero_ok crcHighByte h]

/-! ### The write of a request -/

/-- The state after the write answered OK (20_memory.md R50). -/
def written (s : State) : State := (streamWrite (request s) .ok s).2

theorem onAnswer_tx_ok_of_xwr {s : State} (hp : s.sq.phase = .tx) (hop : s.sq.op = .xwr) :
    onAnswer .ok s = .next (setPhase .ack (written s)) := by
  simp [onAnswer, hp, onTx, streamWrite, written, hop]

theorem onAnswer_tx_ok_of_xrd {s : State} (hp : s.sq.phase = .tx) (hop : s.sq.op = .xrd) :
    onAnswer .ok s = .next (startField 0 (written s)) := by
  simp [onAnswer, hp, onTx, streamWrite, written, hop]

/-! ### The field loop -/

theorem startField_of_lt {i : BitVec 5} {s : State} (h : i.toNat < s.sq.n.toNat) :
    (startField i s).sq = { s.sq with phase := .rxd, i := i, j := 0, rxb := [] } := by
  rw [startField, if_pos h]

theorem startField_of_ge {i : BitVec 5} {s : State} (h : s.sq.n.toNat ≤ i.toNat) :
    (startField i s).sq = { s.sq with phase := .rxc0, i := i } := by
  rw [startField, if_neg (Nat.not_lt.mpr h)]

theorem startField_frame (i : BitVec 5) (s : State) :
    startField i s = { s with
      sq := { s.sq with
        i := i
        phase := (startField i s).sq.phase
        j := (startField i s).sq.j
        rxb := (startField i s).sq.rxb } } := by
  obtain ⟨-, h⟩ | ⟨-, h⟩ := startField_cases i s <;> rw [h]

/-- 43_transport.md R115: a byte of a field reaches CRC and the sequencer only. -/
theorem fieldByte_frame (x : Byte) (s : State) :
    fieldByte x s = { s with crc := crcStep s.crc x, sq := (fieldByte x s).sq } := by
  by_cases hmore : s.sq.j.toNat + 1 < (fwidAt s s.sq.i.toNat).toNat
  · rw [fieldByte_of_more x hmore]
    rfl
  · rw [fieldByte_of_last x hmore, startField_frame]
    rfl

theorem fieldByte_tof (x : Byte) (s : State) : (fieldByte x s).sq.tof = s.sq.tof := by
  by_cases hmore : s.sq.j.toNat + 1 < (fwidAt s s.sq.i.toNat).toNat
  · rw [fieldByte_of_more x hmore]
    rfl
  · rw [fieldByte_of_last x hmore, startField_frame]
    rfl

/-! ### Reset -/

/-- 70_reset_and_hazards.md R160: the registers read as after reset, whatever the environment keeps. -/
theorem regRead_applyReset (sent : Nat) (rxq : List Byte) (s : State) (off : Nat) :
    regRead (applyReset sent rxq s) off = regRead State.reset off := rfl

theorem getD_replicate {α : Type} (n i : Nat) (a : α) :
    (((Vector.replicate n a)[i]? : Option α).getD a) = a := by
  simp only [Vector.getElem?_replicate]
  split_ifs <;> rfl

/-- 70_reset_and_hazards.md R160: the reset values. -/
theorem regRead_reset (off : Nat) :
    regRead State.reset off = if off = 0x008 then 0x00000100 else 0 := by
  have hcfg : regAt off = .cfg ↔ off = 0x008 := by
    simp only [regAt, ite_eq_iff, reduceCtorEq, and_false, and_true, false_or, or_false]
    omega
  have htxbuf (q : Nat) : txbufAt State.reset q = 0 := getD_replicate 68 q 0
  by_cases hoff : off = 0x008
  · rw [if_pos hoff, regRead, hcfg.mpr hoff]
    rfl
  rw [if_neg hoff, regRead]
  cases hr : regAt off with
  | cfg => exact absurd (hcfg.mp hr) hoff
  | fval i => exact getD_replicate 16 i 0
  | fwid i => exact congrArg (BitVec.setWidth 32) (getD_replicate 16 i (0 : Byte))
  | res i => exact getD_replicate 16 i 0
  | txbufWord m =>
    simp only [readReg, htxbuf]
    rfl
  | _ => rfl

theorem abandonedPackets_eq (sent : Nat) (s : State) :
    abandonedPackets sent s = if s.sq.phase = .tx then [(request s).take sent] else [] := by
  unfold abandonedPackets
  cases s.sq.phase <;> rfl

end Sys2Proof.Machine

namespace Sys2Proof.Proofs

open Sys2Proof.Machine

/-- Settles O29: `streamRead1` by the input buffer, which a device byte finds room in when it is empty. -/
theorem readTakesHeadOrTimesOut : Obligations.ReadTakesHeadOrTimesOut := by
  intro s
  refine ⟨fun b rest hrxq => streamRead1_ok_of_cons hrxq,
    fun hrxq => ⟨streamRead1_ok_of_nil hrxq, fun b => ?waits⟩, fun info keep sent => rfl⟩
  case waits =>
    have hport : s.port = { s.port with rxq := [] } := by rw [← hrxq]
    have harrived : (deviceArrival b s).port.rxq = [b] := by
      have hroom : ([] : List Byte).length < s.build.rxDepth := Nat.succ_pos _
      rw [deviceArrival_eq, hrxq, if_pos hroom, List.nil_append]
    rw [streamRead1_ok_of_cons harrived, deviceArrival_eq]
    conv_rhs => rw [hport]
    rfl

/-- Settles O36: `nextAttempt` compares the attempts made with the budget. -/
theorem nextAttemptOrExhaustion : Obligations.NextAttemptOrExhaustion := by
  intro s
  obtain ⟨hk, h⟩ | ⟨hk, h⟩ := nextAttempt_cases s
  · exact ⟨fun hne => absurd hk hne, fun _ => h.trans (exhausted_eq s)⟩
  · exact ⟨fun _ => h, fun heq => absurd heq hk⟩

/-- Settles O40: the write records the request as one packet, and the command says what is awaited. -/
theorem requestGoesOutInOneWrite : Obligations.RequestGoesOutInOneWrite := by
  intro s hp
  cases hop : s.sq.op with
  | xwr => exact ⟨_, onAnswer_tx_ok_of_xwr hp hop, rfl, fun _ => rfl, nofun, nofun⟩
  | xrd =>
    refine ⟨_, onAnswer_tx_ok_of_xrd hp hop, ?frame, nofun, fun _ hn => ?none, fun _ hn => ?some⟩
    case frame => rw [startField_frame]; rfl
    case none => exact startField_of_ge (s := written s) (congrArg BitVec.toNat hn).le
    case some =>
      exact startField_of_lt (s := written s) (Nat.pos_of_ne_zero fun h => hn (BitVec.eq_of_toNat_eq h))

/-- Settles O42: the byte is read and handed to the field loop, which goes on in the field or stages it. -/
theorem fieldBytesAreFoldedAndStaged : Obligations.FieldBytesAreFoldedAndStaged := by
  intro s x late hp hr hread
  refine ⟨fieldByte x (byteRead x late s), onAnswer_rxd_ok hp hread, ?frame, fieldByte_tof x _,
    fun hmore => ?more, fun hlast => ?last⟩
  case frame => exact fieldByte_frame x (byteRead x late s)
  case more => rw [fieldByte_of_more (s := byteRead x late s) x hmore]; rfl
  case last =>
    have hinext : (s.sq.i + 1).toNat = s.sq.i.toNat + 1 := (hr.counters hp).1
    rw [fieldByte_of_last (s := byteRead x late s) x (Nat.not_lt.mpr hlast.ge)]
    refine ⟨?_, fun hnext => ?_, fun hend => ?_⟩
    · have hframe := congrArg State.sq
        (startField_frame ((byteRead x late s).sq.i + 1) (fieldStaged x (byteRead x late s)))
      have htof := congrArg Sequencer.tof hframe
      refine hframe.trans ?_
      rw [htof]
      rfl
    · have hsq := startField_of_lt (s := fieldStaged x (byteRead x late s)) (hinext.trans_lt hnext)
      exact ⟨congrArg Sequencer.phase hsq, congrArg Sequencer.j hsq, congrArg Sequencer.rxb hsq⟩
    · have hsq := startField_of_ge (s := fieldStaged x (byteRead x late s)) (hinext.trans hend).ge
      exact congrArg Sequencer.phase hsq

/-- Settles O43: the byte is read and stands above the low byte of the received checksum. -/
theorem responseChecksumIsReadHighFirst : Obligations.ResponseChecksumIsReadHighFirst := by
  intro s hi late hp hread
  exact ⟨crcHighByte hi (byteRead hi late s), onAnswer_rxc0_ok hp hread, rfl,
    BitVec.extractLsb'_append_eq_left⟩

/-- Settles O49: the move is handled by `applyReset`, which takes every register from the reset state. -/
theorem resetGivesResetValues : Obligations.ResetGivesResetValues := by
  intro s sent rxq rest hin hlen
  refine ⟨applyReset sent rxq { s with inputs := rest }, step_of_inputs_cons hin,
    fun off => (regRead_applyReset ..).trans (regRead_reset off), rfl, rfl, rfl, rfl, rfl,
    List.take_of_length_le hlen, rfl, rfl, ?packets, rfl, rfl⟩
  case packets =>
    exact congrArg (s.txlog.packets ++ ·) (abandonedPackets_eq sent { s with inputs := rest })

/-- Settles O50: the registers hold their reset values, and in IDLE the invariants bound the buffers only. -/
theorem resetStateMeetsInvariant : Obligations.ResetStateMeetsInvariant :=
  ⟨regRead_reset, rfl, rfl, rfl, rfl, inv_of_idle rfl rfl (Nat.zero_le _) (Nat.zero_le _),
    attemptBytes_of_phase (.inl rfl)⟩

end Sys2Proof.Proofs
end

section
/-! SUPPORT and RESULTS. The host's listing beside the block: the expansion of crc.update (O14) and the loop
of `wait` (O60). -/

namespace Sys2Proof.Machine

/-! ### The host's turns -/

theorem runHosted_of_takeTurn {who : Turn} {h k : Hosted} (later : List Turn)
    (hk : takeTurn who h = .next k) : runHosted (who :: later) h = runHosted later k := by
  rw [runHosted_cons, hk]

theorem takeTurn_command_of_idle {s : State} {i : Instr} (rest : List HostOp)
    (hbusy : s.status.busy = false) (hwf : i.wf = true) :
    takeTurn .host { listing := cmdOp i :: rest, block := s } = resume rest (exec i s) := by
  have hwrite : handle (stInput .cmd (encode i)) s = exec i s :=
    (hostWrite_register_of_idle .cmd (encode i) rfl (by decide) hbusy trivial rfl).trans
      (writeCmd_encode s hwf)
  exact congrArg (resume rest) hwrite

/-- 30_encoding.md part 3: one CRC.FEED for each byte, each in one turn. -/
theorem runHosted_crcUpdate (bs : List Byte) (rest : List HostOp) {s : State}
    (hbusy : s.status.busy = false) :
    ∃ t, runHosted (List.replicate bs.length .host)
          { listing := bs.map (fun b => cmdOp (.crcFeed b)) ++ rest, block := s }
        = .next { listing := rest, block := t }
      ∧ t.crc = crcBytes s.crc bs ∧ t.inputs = s.inputs
      ∧ t.data = s.data ∧ t.bytes = s.bytes ∧ t.res = s.res ∧ t.txbuf = s.txbuf
      ∧ t.txlen = s.txlen ∧ t.status.rvalid = s.status.rvalid ∧ t.port = s.port := by
  induction bs generalizing s with
  | nil => exact ⟨s, rfl, rfl, rfl, rfl, rfl, rfl, rfl, rfl, rfl, rfl⟩
  | cons b bs ih =>
    obtain ⟨t, hrun, hkept⟩ := ih (s := { completedOk s with crc := crcStep s.crc b }) rfl
    refine ⟨t, ?_, hkept⟩
    rw [List.length_cons, List.replicate_succ, List.map_cons, List.cons_append, runHosted_of_takeTurn _ ?turn]
    · exact hrun
    case turn =>
      rw [takeTurn_command_of_idle _ hbusy rfl, exec_crcFeed_of_idle b hbusy]
      rfl

/-! ### The loop of `wait` -/

/-- 10_state.md R13: bit 0 of STATUS is BUSY. -/
theorem regRead_status_bit_zero (s : State) : (regRead s 0x004).getLsbD 0 = s.status.busy := by
  have hread : regRead s 0x004 = s.status.word := rfl
  rw [hread, Status.word, BitVec.getLsbD_append]
  cases s.status.busy <;> rfl

/-- The block when a turn of `wait` has read STATUS. -/
def statusRead (s : State) : State := { s with readLog := s.readLog ++ [regRead s 0x004] }

theorem takeTurn_wait (s : State) (rest : List HostOp) :
    takeTurn .host { listing := .wait :: rest, block := s } =
      .next { listing := if s.status.busy then .wait :: rest else rest, block := statusRead s } := by
  have hread : handle (ldInput .status) s = .next (statusRead s) :=
    hostRead_of_aligned (off := 0x004) s rfl (by decide)
  have hafter : afterWait (regRead s 0x004) rest = if s.status.busy then .wait :: rest else rest := by
    rw [afterWait, regRead_status_bit_zero]
  calc takeTurn .host { listing := .wait :: rest, block := s }
      = resume (afterWait (regRead s 0x004) rest) (handle (ldInput .status) s) := rfl
    _ = _ := by rw [hread, hafter]; rfl

theorem takeTurn_wait_of_busy {s : State} (rest : List HostOp) (h : s.status.busy = true) :
    takeTurn .host { listing := .wait :: rest, block := s } =
      .next { listing := .wait :: rest, block := statusRead s } := by
  rw [takeTurn_wait, h, if_pos rfl]

theorem takeTurn_wait_of_idle {s : State} (rest : List HostOp) (h : s.status.busy = false) :
    takeTurn .host { listing := .wait :: rest, block := s } =
      .next { listing := rest, block := statusRead s } := by
  rw [takeTurn_wait, h]
  rfl

theorem runHosted_wait_of_busy (rest : List HostOp) (m : Nat) {s : State} (h : s.status.busy = true) :
    runHosted (List.replicate m .host) { listing := .wait :: rest, block := s } =
      .next
        { listing := .wait :: rest
          block := { s with readLog := s.readLog ++ List.replicate m (regRead s 0x004) } } := by
  induction m generalizing s with
  | zero =>
    rw [List.replicate_zero, List.replicate_zero, List.append_nil]
    rfl
  | succ m ih =>
    have hreads : s.readLog ++ List.replicate (m + 1) (regRead s 0x004) =
        (statusRead s).readLog ++ List.replicate m (regRead s 0x004) := by
      rw [statusRead, List.append_assoc, List.singleton_append, List.replicate_succ]
    rw [List.replicate_succ, runHosted_of_takeTurn _ (takeTurn_wait_of_busy rest h), hreads]
    exact ih (s := statusRead s) h

/-- What a `wait` comes to over any turns: the host is still in it, or a turn found BUSY = 0 and the later
turns run what follows it. -/
def WaitOutcome (turns : List Turn) (s : State) (rest : List HostOp) (h : Hosted) : Prop :=
  h.listing = .wait :: rest
    ∨ ∃ (before after : List Turn) (u : State), turns = before ++ .host :: after
      ∧ runHosted before { listing := .wait :: rest, block := s } =
        .next { listing := .wait :: rest, block := u }
      ∧ u.status.busy = false
      ∧ runHosted after { listing := rest, block := statusRead u } = .next h

/-- A turn that leaves the host in the `wait` can be put before the others. -/
theorem WaitOutcome.cons {who : Turn} {turns : List Turn} {s t : State} {rest : List HostOp} {h : Hosted}
    (hturn : takeTurn who { listing := .wait :: rest, block := s } =
      .next { listing := .wait :: rest, block := t })
    (hout : WaitOutcome turns t rest h) : WaitOutcome (who :: turns) s rest h := by
  obtain hstill | ⟨before, after, u, rfl, hbefore, hu, hafter⟩ := hout
  · exact .inl hstill
  · exact .inr ⟨who :: before, after, u, rfl, (runHosted_of_takeTurn before hturn).trans hbefore, hu, hafter⟩

theorem waitOutcome_of_runHosted {turns : List Turn} {s : State} {rest : List HostOp} {h : Hosted}
    (hrun : runHosted turns { listing := .wait :: rest, block := s } = .next h) :
    WaitOutcome turns s rest h := by
  induction turns generalizing s with
  | nil =>
    cases hrun
    exact .inl rfl
  | cons who turns ih =>
    cases who with
    | host =>
      cases hbusy : s.status.busy with
      | true =>
        have hturn := takeTurn_wait_of_busy rest hbusy
        rw [runHosted_of_takeTurn _ hturn] at hrun
        exact (ih hrun).cons hturn
      | false =>
        rw [runHosted_of_takeTurn _ (takeTurn_wait_of_idle rest hbusy)] at hrun
        exact .inr ⟨[], turns, s, rfl, rfl, hbusy, hrun⟩
    | block =>
      cases hstep : step s with
      | next t =>
        have hturn : takeTurn .block { listing := .wait :: rest, block := s } =
            .next { listing := .wait :: rest, block := t } := congrArg (resume (.wait :: rest)) hstep
        rw [runHosted_of_takeTurn _ hturn] at hrun
        exact (ih hrun).cons hturn
      | fault f =>
        have hturn : takeTurn .block { listing := .wait :: rest, block := s } = .fault f :=
          congrArg (resume (.wait :: rest)) hstep
        rw [runHosted_cons, hturn] at hrun
        cases hrun
      | refused r =>
        have hturn : takeTurn .block { listing := .wait :: rest, block := s } = .refused r :=
          congrArg (resume (.wait :: rest)) hstep
        rw [runHosted_cons, hturn] at hrun
        cases hrun

end Sys2Proof.Machine

namespace Sys2Proof.Proofs

open Sys2Proof.Machine

/-- Settles O14, by induction on the byte list: each turn issues the CRC.FEED of one byte. -/
theorem crcUpdateFoldsByteList : Obligations.CrcUpdateFoldsByteList :=
  fun _ bs rest hbusy => runHosted_crcUpdate bs rest hbusy

/-- Settles O60: a turn of `wait` reads STATUS, whose bit 0 is BUSY, and a turn of the block leaves the
listing. -/
theorem waitEndsWhenBusyClears : Obligations.WaitEndsWhenBusyClears :=
  ⟨fun _ rest hbusy => takeTurn_wait_of_idle rest hbusy,
    fun _ rest m hbusy => runHosted_wait_of_busy rest m hbusy,
    fun _ _ _ _ hrun => waitOutcome_of_runHosted hrun, rfl, fun _ _ => ⟨rfl, rfl⟩⟩

end Sys2Proof.Proofs
end

section
/-! SUPPORT and RESULTS. The sequencer variables that reset leaves unspecified are written before they are
read (O59): a relation between two states that differ in the sequencer only, kept by every move. -/

namespace Sys2Proof.Machine

/-! ### Sequencers that go on alike -/

/-- Which variables of two sequencers agree, phase by phase: those that a rule may read before it writes
them (10_state.md R24, R25). -/
structure SequencerAlike (p q : Sequencer) : Prop where
  phase : q.phase = p.phase
  k : q.k = p.k
  lastfail : q.lastfail = p.lastfail
  lastinfo : q.lastinfo = p.lastinfo
  latched : p.phase ≠ .idle → q.op = p.op ∧ q.kc = p.kc ∧ q.n = p.n ∧ q.tof = p.tof
  receiving : p.phase = .rxd →
    q.i = p.i ∧ q.j = p.j ∧ q.rxb = p.rxb ∧ ∀ m, m < p.i.toNat → q.stg[m]? = p.stg[m]?
  received : p.phase = .rxc0 ∨ p.phase = .rxc1 → ∀ m, m < p.n.toNat → q.stg[m]? = p.stg[m]?
  checking : p.phase = .rxc1 → q.rxcrc = p.rxcrc

/-- The state with another sequencer. -/
def withSq (q : Sequencer) (s : State) : State := { s with sq := q }

/-- Two states that differ in the sequencer only, where that difference is not read. -/
inductive Alike (s : State) : State → Prop
  | intro (q : Sequencer) (h : SequencerAlike s.sq q) : Alike s (withSq q s)

/-- Two outcomes that stop for one reason, or go on to states that are alike. -/
inductive OutcomeAlike : Host.Outcome State Fault Refusal → Host.Outcome State Fault Refusal → Prop
  | next {s t : State} (h : Alike s t) : OutcomeAlike (.next s) (.next t)
  | fault (f : Fault) : OutcomeAlike (.fault f) (.fault f)
  | refused (r : Refusal) : OutcomeAlike (.refused r) (.refused r)

theorem sequencerAlike_of_idle {p q : Sequencer} (hp : p.phase = .idle) (hphase : q.phase = p.phase)
    (hk : q.k = p.k) (hfail : q.lastfail = p.lastfail) (hinfo : q.lastinfo = p.lastinfo) :
    SequencerAlike p q where
  phase := hphase
  k := hk
  lastfail := hfail
  lastinfo := hinfo
  latched h := absurd hp h
  receiving h := nomatch hp.symm.trans h
  received h := by obtain h | h := h <;> exact nomatch hp.symm.trans h
  checking h := nomatch hp.symm.trans h

/-! ### The ends of a command -/

theorem alike_finishOk {s : State} {q : Sequencer} (h : SequencerAlike s.sq q) :
    Alike (finishOk s) (finishOk (withSq q s)) :=
  .intro { q with phase := .idle } (sequencerAlike_of_idle rfl rfl h.k h.lastfail h.lastinfo)

theorem alike_raiseErr (e : Code) (info : Word) {s : State} {q : Sequencer} (hk : q.k = s.sq.k)
    (hfail : q.lastfail = s.sq.lastfail) (hinfo : q.lastinfo = s.sq.lastinfo) :
    Alike (raiseErr e info s) (raiseErr e info (withSq q s)) :=
  .intro { q with phase := .idle } (sequencerAlike_of_idle rfl rfl hk hfail hinfo)

/-- What a new attempt reads of the sequencer. -/
structure Latched (p q : Sequencer) : Prop where
  op : q.op = p.op
  kc : q.kc = p.kc
  n : q.n = p.n
  k : q.k = p.k

theorem alike_nextAttempt {s : State} {q : Sequencer} (h : Latched s.sq q)
    (hfail : q.lastfail = s.sq.lastfail) (hinfo : q.lastinfo = s.sq.lastinfo) :
    Alike (nextAttempt s) (nextAttempt (withSq q s)) := by
  have hkq : (withSq q s).sq.k = s.sq.k := h.k
  obtain ⟨hk, hs⟩ | ⟨hk, hs⟩ := nextAttempt_cases s
  · obtain ⟨-, ht⟩ | ⟨hne, -⟩ := nextAttempt_cases (withSq q s)
    · have hsame : exhausted (withSq q s) =
          raiseErr (if s.sq.lastfail = .io then .errIo else .errExhausted) s.sq.lastinfo (withSq q s) := by
        rw [exhausted_eq, ← hfail, ← hinfo]
        rfl
      rw [hs, ht, hsame, exhausted_eq]
      exact alike_raiseErr _ _ h.k hfail hinfo
    · exact absurd (hkq.trans hk) hne
  · obtain ⟨heq, -⟩ | ⟨-, ht⟩ := nextAttempt_cases (withSq q s)
    · exact absurd (hkq.symm.trans heq) hk
    · rw [hs, ht, hkq]
      exact .intro { q with k := s.sq.k + 1, tof := false, phase := .flush }
        ⟨rfl, rfl, hfail, hinfo, fun _ => ⟨h.op, h.kc, h.n, rfl⟩, nofun, nofun, nofun⟩

theorem SequencerAlike.toLatched {p q : Sequencer} (h : SequencerAlike p q) (hp : p.phase ≠ .idle) :
    Latched p q :=
  have ⟨hop, hkc, hn, _⟩ := h.latched hp
  ⟨hop, hkc, hn, h.k⟩

theorem alike_failAttempt (why : LastFail) (info : Word) {s : State} {q : Sequencer}
    (h : Latched s.sq q) : Alike (failAttempt why info s) (failAttempt why info (withSq q s)) :=
  alike_nextAttempt (s := { s with sq := { s.sq with lastfail := why, lastinfo := info } })
    (q := { q with lastfail := why, lastinfo := info }) ⟨h.op, h.kc, h.n, h.k⟩ rfl rfl

theorem alike_ioError (info : Word) {s : State} {q : Sequencer} (h : Latched s.sq q) :
    Alike (ioError info s) (ioError info (withSq q s)) := by
  obtain ⟨hretry, hs⟩ | ⟨hretry, hs⟩ := ioError_cases info s
  · obtain ⟨-, ht⟩ | ⟨hno, -⟩ := ioError_cases info (withSq q s)
    · rw [hs, ht]
      exact alike_failAttempt .io info h
    · cases hretry.symm.trans hno
  · obtain ⟨hyes, -⟩ | ⟨-, ht⟩ := ioError_cases info (withSq q s)
    · cases hretry.symm.trans hyes
    · rw [hs, ht]
      exact alike_raiseErr (s := { s with sq := { s.sq with lastfail := .io, lastinfo := info } })
        (q := { q with lastfail := .io, lastinfo := info }) .errIo info h.k rfl rfl

/-! ### The host's writes -/

theorem alike_of_sq_unread {s t : State} {q : Sequencer} (hsq : t.sq = s.sq)
    (h : SequencerAlike s.sq q) : Alike t (withSq q t) := .intro q (hsq ▸ h)

/-- A command with a body that reads nothing of the sequencer that differs. -/
theorem alike_issue {body : State → State} {s : State} {q : Sequencer} (h : SequencerAlike s.sq q)
    (hbody : Alike (body (accept s)) (body (withSq q (accept s)))) :
    Alike (issue body s) (issue body (withSq q s)) := by
  cases hbusy : s.status.busy with
  | true =>
    rw [issue_of_busy body hbusy, issue_of_busy (s := withSq q s) body hbusy]
    exact alike_of_sq_unread (t := dropWrite s) rfl h
  | false =>
    rw [issue_of_idle body hbusy, issue_of_idle (s := withSq q s) body hbusy]
    exact hbody

theorem alike_illegalCommand (w : Word) {s : State} {q : Sequencer} (h : SequencerAlike s.sq q) :
    Alike (illegalCommand w s) (illegalCommand w (withSq q s)) :=
  alike_issue h (alike_raiseErr .errIllegal w h.k h.lastfail h.lastinfo)

theorem alike_acceptTransport (kind : Op) (kc : Byte) (n : BitVec 5) (s : State) (q : Sequencer) :
    Alike (acceptTransport kind kc n s) (acceptTransport kind kc n (withSq q s)) := by
  have hlatch : latch kind kc n (withSq q s) =
      withSq (latch kind kc n (withSq q s)).sq (latch kind kc n s) := rfl
  have hends (e : Code) (info : Word) :
      Alike (raiseErr e info (latch kind kc n s)) (raiseErr e info (latch kind kc n (withSq q s))) := by
    rw [hlatch]
    exact alike_raiseErr e info rfl rfl rfl
  obtain ⟨i, hi, hs⟩ | ⟨hnone, info, hport, hs⟩ | ⟨hnone, hport, hs⟩ := acceptTransport_cases kind kc n s
  · obtain ⟨j, hj, ht⟩ | ⟨hj, -⟩ | ⟨hj, -⟩ := acceptTransport_cases kind kc n (withSq q s)
    · obtain rfl : i = j := Option.some.inj (hi.symm.trans hj)
      rw [hs, ht]
      exact hends _ _
    · cases hi.symm.trans hj
    · cases hi.symm.trans hj
  · obtain ⟨j, hj, -⟩ | ⟨-, info', hport', ht⟩ | ⟨-, hready, -⟩ :=
      acceptTransport_cases kind kc n (withSq q s)
    · cases hnone.symm.trans hj
    · obtain rfl : info = info' := PortCfg.cfgErr.inj (hport.symm.trans hport')
      rw [hs, ht]
      exact hends _ _
    · cases hport.symm.trans hready
  · obtain ⟨j, hj, -⟩ | ⟨-, info', hport', -⟩ | ⟨-, -, ht⟩ := acceptTransport_cases kind kc n (withSq q s)
    · cases hnone.symm.trans hj
    · cases hport.symm.trans hport'
    · rw [hs, ht]
      exact alike_nextAttempt
        (s := { latch kind kc n s with status := { (latch kind kc n s).status with busy := true } })
        (q := (latch kind kc n (withSq q s)).sq) ⟨rfl, rfl, rfl, rfl⟩ rfl rfl

theorem alike_exec (i : Instr) {s : State} {q : Sequencer} (h : SequencerAlike s.sq q) :
    OutcomeAlike (exec i s) (exec i (withSq q s)) := by
  have hcodec {body : State → State} (hbody : Alike (body (accept s)) (body (withSq q (accept s)))) :
      OutcomeAlike (.next (issue body s)) (.next (issue body (withSq q s))) := .next (alike_issue h hbody)
  cases i with
  | crcFeedb c =>
    simp only [exec, execCrcFeedb]
    split
    · exact hcodec (alike_finishOk (s := { accept s with crc := _ }) h)
    · exact .next (alike_illegalCommand _ h)
  | xwr kc n =>
    simp only [exec, execXwr]
    split
    · exact hcodec (alike_acceptTransport ..)
    · exact .next (alike_illegalCommand _ h)
  | xrd kc n =>
    simp only [exec, execXrd]
    split
    · exact hcodec (alike_acceptTransport ..)
    · exact .next (alike_illegalCommand _ h)
  | crcClr | crcFeed => exact hcodec (alike_finishOk (s := { accept s with crc := _ }) h)
  | enc8 | enc16 | enc32 => exact hcodec (alike_finishOk (s := { accept s with bytes := _ }) h)
  | dec8 | dec16 | dec32 => exact hcodec (alike_finishOk (s := { accept s with data := _ }) h)

theorem alike_writeStatus (v : Word) {s : State} {q : Sequencer} (h : SequencerAlike s.sq q) :
    Alike (writeStatus v s) (writeStatus v (withSq q s)) := by
  unfold writeStatus
  split_ifs
  · exact alike_of_sq_unread (t := { s with status := { s.status with ovr := false } }) rfl h
  · exact .intro q h

theorem alike_writeReg (r : Reg) (v : Word) {s : State} {q : Sequencer} (h : SequencerAlike s.sq q) :
    OutcomeAlike (writeReg r v s) (writeReg r v (withSq q s)) := by
  have hkept {t : State} (hsq : t.sq = s.sq) : OutcomeAlike (.next t) (.next (withSq q t)) :=
    .next (alike_of_sq_unread hsq h)
  cases r with
  | cmd =>
    simp only [writeReg, writeCmd]
    split
    · exact alike_exec _ h
    · exact .next (alike_illegalCommand v h)
  | status => exact .next (alike_writeStatus v h)
  | cfg => exact hkept (t := { s with cfg := Cfg.ofWord v }) rfl
  | data => exact hkept (t := { s with data := v }) rfl
  | bytes => exact hkept (t := { s with bytes := v }) rfl
  | fval i => exact hkept (t := { s with fval := s.fval.setIfInBounds i v }) rfl
  | fwid i => exact hkept (t := { s with fwid := s.fwid.setIfInBounds i (v.extractLsb' 0 8) }) rfl
  | crc | errinfo | txlen | res | txbufWord | reserved => exact hkept rfl

theorem alike_regWrite (off : Nat) (v : Word) {s : State} {q : Sequencer} (h : SequencerAlike s.sq q) :
    OutcomeAlike (regWrite off v s) (regWrite off v (withSq q s)) := by
  cases hbusy : s.status.busy with
  | false =>
    rw [regWrite_of_idle off v hbusy, regWrite_of_idle (s := withSq q s) off v hbusy]
    exact alike_writeReg _ v h
  | true =>
    by_cases hoff : off = 0x004
    · rw [hoff, regWrite_status, regWrite_status]
      exact .next (alike_writeStatus v h)
    · rw [regWrite_of_busy v hbusy hoff, regWrite_of_busy (s := withSq q s) v hbusy hoff]
      exact .next (alike_of_sq_unread (t := dropWrite s) rfl h)

/-! ### The answers of the port -/

theorem streamFlush_withSq (a : PortAnswer) (q : Sequencer) (s : State) :
    streamFlush a (withSq q s) = ((streamFlush a s).1, withSq q (streamFlush a s).2) := by
  cases a <;> rfl

theorem streamWrite_withSq (bs : List Byte) (a : PortAnswer) (q : Sequencer) (s : State) :
    streamWrite bs a (withSq q s) = ((streamWrite bs a s).1, withSq q (streamWrite bs a s).2) := by
  cases a <;> rfl

theorem streamRead1_withSq (a : PortAnswer) (q : Sequencer) (s : State) :
    streamRead1 a (withSq q s) = ((streamRead1 a s).1, withSq q (streamRead1 a s).2) := by
  obtain ⟨b, rest, rfl, hrxq, h⟩ | ⟨rfl, hrxq, h⟩ | ⟨info, keep, sent, rfl, h⟩ := streamRead1_cases a s
  · rw [h, streamRead1_ok_of_cons (s := withSq q s) hrxq]
    rfl
  · rw [h, streamRead1_ok_of_nil (s := withSq q s) hrxq]
    rfl
  · rfl

theorem emitAll_withSq (bs : List Byte) (q : Sequencer) (s : State) :
    emitAll bs (withSq q s) = withSq q (emitAll bs s) := by
  induction bs generalizing s with
  | nil => rfl
  | cons b bs ih => exact ih (emitTx b s)

/-- The request is built from the latched command. -/
theorem buildRequest_withSq {q : Sequencer} {s : State} (h : Latched s.sq q) :
    buildRequest (withSq q s) = withSq q (buildRequest s) := by
  have hop' : (withSq q s).sq.op = s.sq.op := h.op
  cases hop : s.sq.op with
  | xwr =>
    have hbody : (withSq q s).cfg.addr :: (withSq q s).sq.kc :: payload (withSq q s) (withSq q s).sq.n.toNat =
        s.cfg.addr :: s.sq.kc :: payload s s.sq.n.toNat := by
      rw [show (withSq q s).sq.kc = s.sq.kc from h.kc, show (withSq q s).sq.n = s.sq.n from h.n]
      rfl
    rw [buildRequest_of_xwr hop, buildRequest_of_xwr (hop'.trans hop), xwrBuild, hbody, emitAll_withSq]
    rfl
  | xrd =>
    rw [buildRequest_of_xrd hop, buildRequest_of_xrd (hop'.trans hop), xrdBuild, xrdBuild,
      show (withSq q s).sq.kc = s.sq.kc from h.kc]
    rfl

theorem buildRequest_sq (s : State) : (buildRequest s).sq = s.sq := by
  cases hop : s.sq.op with
  | xwr => rw [buildRequest_of_xwr hop, xwrBuild_frame]
  | xrd => rw [buildRequest_of_xrd hop, xrdBuild_frame]

theorem alike_buildRequest {s : State} {q : Sequencer} (h : SequencerAlike s.sq q)
    (hp : s.sq.phase ≠ .idle) :
    Alike (setPhase .tx (buildRequest s)) (setPhase .tx (buildRequest (withSq q s))) := by
  have hsq : SequencerAlike (setPhase .tx (buildRequest s)).sq { q with phase := .tx } := by
    rw [setPhase_sq, buildRequest_sq]
    exact ⟨rfl, h.k, h.lastfail, h.lastinfo, fun _ => h.latched hp, nofun, nofun, nofun⟩
  rw [buildRequest_withSq (h.toLatched hp)]
  exact .intro { q with phase := .tx } hsq

theorem alike_onFlush (a : PortAnswer) {s : State} {q : Sequencer} (h : SequencerAlike s.sq q)
    (hp : s.sq.phase ≠ .idle) : Alike (onFlush a s) (onFlush a (withSq q s)) := by
  unfold onFlush
  rw [streamFlush_withSq]
  obtain ⟨-, hs⟩ | ⟨info, keep, sent, -, hs⟩ := streamFlush_cases a s
  · rw [hs]
    exact alike_buildRequest (s := recordAnswer .flushOk { s with port := { s.port with rxq := [] } }) h hp
  · rw [hs]
    exact alike_ioError info (h.toLatched hp)

/-- The start of a field writes what the field loop reads. -/
theorem alike_startField {i : BitVec 5} {s : State} {q : Sequencer} (h : Latched s.sq q)
    (hfail : q.lastfail = s.sq.lastfail) (hinfo : q.lastinfo = s.sq.lastinfo) (htof : q.tof = s.sq.tof)
    (hstg : ∀ m, m < i.toNat → q.stg[m]? = s.sq.stg[m]?) :
    Alike (startField i s) (startField i (withSq q s)) := by
  have hnq : (withSq q s).sq.n = s.sq.n := h.n
  obtain ⟨hi, hs⟩ | ⟨hi, hs⟩ := startField_cases i s
  · obtain ⟨-, ht⟩ | ⟨hge, -⟩ := startField_cases i (withSq q s)
    · rw [hs, ht]
      exact .intro { q with phase := .rxd, i := i, j := 0, rxb := [] }
        ⟨rfl, h.k, hfail, hinfo, fun _ => ⟨h.op, h.kc, h.n, htof⟩, fun _ => ⟨rfl, rfl, rfl, hstg⟩,
          nofun, nofun⟩
    · exact absurd (hnq ▸ hi) hge
  · obtain ⟨hlt, -⟩ | ⟨-, ht⟩ := startField_cases i (withSq q s)
    · exact absurd (hnq ▸ hlt) hi
    · rw [hs, ht]
      exact .intro { q with phase := .rxc0, i := i }
        ⟨rfl, h.k, hfail, hinfo, fun _ => ⟨h.op, h.kc, h.n, htof⟩, nofun,
          fun _ m hm => hstg m (hm.trans_le (Nat.not_lt.mp hi)), nofun⟩

theorem alike_onTx (a : PortAnswer) {s : State} {q : Sequencer} (h : SequencerAlike s.sq q)
    (hp : s.sq.phase ≠ .idle) : Alike (onTx a s) (onTx a (withSq q s)) := by
  have hlatched := h.toLatched hp
  have hreq : request (withSq q s) = request s := rfl
  unfold onTx
  rw [hreq, streamWrite_withSq]
  obtain ⟨-, hs⟩ | ⟨info, keep, sent, -, hs⟩ := streamWrite_cases (request s) a s
  · rw [hs]
    dsimp only [withSq, recordAnswer_sq, recordPacket_sq]
    rw [hlatched.op]
    cases s.sq.op with
    | xwr =>
      exact .intro { q with phase := .ack }
        ⟨rfl, h.k, h.lastfail, h.lastinfo, fun _ => h.latched hp, nofun, nofun, nofun⟩
    | xrd =>
      obtain ⟨-, -, -, htof⟩ := h.latched hp
      exact alike_startField (i := 0) (s := recordAnswer (.writeOk (request s)) (recordPacket (request s) s))
        hlatched h.lastfail h.lastinfo htof nofun
  · rw [hs]
    exact alike_ioError info hlatched

theorem alike_onAck (a : PortAnswer) {s : State} {q : Sequencer} (h : SequencerAlike s.sq q)
    (hp : s.sq.phase ≠ .idle) : Alike (onAck a s) (onAck a (withSq q s)) := by
  have hlatched := h.toLatched hp
  unfold onAck
  rw [streamRead1_withSq]
  obtain ⟨b, rest, -, -, hs⟩ | ⟨-, -, hs⟩ | ⟨info, keep, sent, -, hs⟩ := streamRead1_cases a s
  · rw [hs]
    dsimp only
    split_ifs
    · exact alike_finishOk (s := recordAnswer _ { s with port := { s.port with rxq := rest } }) h
    · exact alike_failAttempt .nack _ (s := recordAnswer _ { s with port := { s.port with rxq := rest } })
        hlatched
  · rw [hs]
    exact alike_failAttempt .nack _ (s := recordAnswer .readTimeout s) hlatched
  · rw [hs]
    exact alike_ioError info (s := recordAnswer (.readErr info) s) hlatched

theorem SequencerAlike.withTof {p q : Sequencer} (h : SequencerAlike p q) (tof : Bool) :
    SequencerAlike { p with tof := tof } { q with tof := tof } :=
  { h with
    latched := fun hp =>
      have ⟨hop, hkc, hn, _⟩ := h.latched hp
      ⟨hop, hkc, hn, rfl⟩ }

/-- A read of a response byte, with what the sequencer does with it. -/
theorem alike_readOrZero {got : Byte → State → State} (a : PortAnswer) {s : State} {q : Sequencer}
    (h : SequencerAlike s.sq q) (hp : s.sq.phase ≠ .idle)
    (hgot : ∀ (x : Byte) (u : State) (r : Sequencer), u.sq.phase = s.sq.phase → SequencerAlike u.sq r →
      Alike (got x u) (got x (withSq r u))) :
    Alike (readOrZero got a s) (readOrZero got a (withSq q s)) := by
  unfold readOrZero
  rw [streamRead1_withSq]
  obtain ⟨b, rest, -, -, hs⟩ | ⟨-, -, hs⟩ | ⟨info, keep, sent, -, hs⟩ := streamRead1_cases a s
  · rw [hs]
    exact hgot b (recordAnswer _ { s with port := { s.port with rxq := rest } }) q rfl h
  · rw [hs]
    exact hgot 0x00 { recordAnswer .readTimeout s with sq := { s.sq with tof := true } }
      { q with tof := true } rfl (h.withTof true)
  · rw [hs]
    exact alike_ioError info (s := recordAnswer (.readErr info) s) (h.toLatched hp)

theorem alike_fieldByte (x : Byte) {s : State} {q : Sequencer} (h : SequencerAlike s.sq q)
    (hp : s.sq.phase = .rxd) : Alike (fieldByte x s) (fieldByte x (withSq q s)) := by
  obtain ⟨hi, hj, hrxb, hstg⟩ := h.receiving hp
  have hrun : s.sq.phase ≠ .idle := by simp [hp]
  have hlatched := h.toLatched hrun
  obtain ⟨-, -, -, htof⟩ := h.latched hrun
  have hcount : (withSq q s).sq.j.toNat + 1 < (fwidAt (withSq q s) (withSq q s).sq.i.toNat).toNat ↔
      s.sq.j.toNat + 1 < (fwidAt s s.sq.i.toNat).toNat := by
    rw [show (withSq q s).sq.j = s.sq.j from hj, show (withSq q s).sq.i = s.sq.i from hi]
    rfl
  by_cases hmore : s.sq.j.toNat + 1 < (fwidAt s s.sq.i.toNat).toNat
  · rw [fieldByte_of_more x hmore, fieldByte_of_more x (hcount.mpr hmore)]
    exact .intro (s := fieldGoesOn x s) { q with rxb := q.rxb ++ [x], j := q.j + 1 }
      { h with receiving := fun _ => ⟨hi, congrArg (· + 1) hj, congrArg (· ++ [x]) hrxb, hstg⟩ }
  · rw [fieldByte_of_last x hmore, fieldByte_of_last x (mt hcount.mp hmore),
      show (withSq q s).sq.i = s.sq.i from hi]
    have hbound : (s.sq.i + 1).toNat ≤ s.sq.i.toNat + 1 := by
      rw [BitVec.toNat_add]
      exact Nat.mod_le _ _
    refine alike_startField (s := fieldStaged x s) (q := (fieldStaged x (withSq q s)).sq)
      ⟨hlatched.op, hlatched.kc, hlatched.n, hlatched.k⟩ h.lastfail h.lastinfo htof fun m hm => ?_
    simp only [fieldStaged, withSq, hi, hrxb, Vector.getElem?_setIfInBounds]
    split_ifs
    · rfl
    · rfl
    · exact hstg m (by omega)

theorem alike_crcHighByte (x : Byte) {s : State} {q : Sequencer} (h : SequencerAlike s.sq q)
    (hp : s.sq.phase = .rxc0) : Alike (crcHighByte x s) (crcHighByte x (withSq q s)) := by
  have hrun : s.sq.phase ≠ .idle := by simp [hp]
  exact .intro (s := crcHighByte x s) { q with rxcrc := x ++ 0#8, phase := .rxc1 }
    ⟨rfl, h.k, h.lastfail, h.lastinfo, fun _ => h.latched hrun, nofun, fun _ => h.received (.inl hp),
      fun _ => rfl⟩

/-- The results are read from the staged values below `n` only. -/
theorem copyBelow_congr {n : Nat} {src src' : Vector Word 16} (dst : Vector Word 16)
    (h : ∀ m, m < n → src'[m]? = src[m]?) : copyBelow n src' dst = copyBelow n src dst := by
  induction n with
  | zero => rfl
  | succ n ih =>
    rw [copyBelow, copyBelow, ih fun m hm => h m (Nat.lt_succ_of_lt hm), h n (Nat.lt_succ_self n)]

theorem alike_verdict {s : State} {q : Sequencer} (h : SequencerAlike s.sq q)
    (hp : s.sq.phase = .rxc1) : Alike (verdict s) (verdict (withSq q s)) := by
  have hrun : s.sq.phase ≠ .idle := by simp [hp]
  obtain ⟨-, -, hn, htof⟩ := h.latched hrun
  have hrxcrc : (withSq q s).sq.rxcrc = s.sq.rxcrc := h.checking hp
  have hverified : verified (withSq q s) = verified s := by
    rw [verified, verified, hrxcrc, show (withSq q s).sq.tof = s.sq.tof from htof]
    rfl
  obtain ⟨hv, hs⟩ | ⟨hv, hs⟩ := verdict_cases s
  · obtain ⟨-, ht⟩ | ⟨hnot, -⟩ := verdict_cases (withSq q s)
    · have hres : copyBelow (withSq q s).sq.n.toNat (withSq q s).sq.stg (withSq q s).res =
          copyBelow s.sq.n.toNat s.sq.stg s.res := by
        rw [show (withSq q s).sq.n = s.sq.n from hn]
        exact copyBelow_congr s.res (h.received (.inr hp))
      rw [hs, ht, hres]
      exact alike_finishOk
        (s := { s with
          res := copyBelow s.sq.n.toNat s.sq.stg s.res
          status := { s.status with rvalid := true } }) h
    · cases (hverified.trans hv).symm.trans hnot
  · obtain ⟨hyes, -⟩ | ⟨-, ht⟩ := verdict_cases (withSq q s)
    · cases (hverified.trans hv).symm.trans hyes
    · rw [hs, ht, hrxcrc]
      exact alike_failAttempt .bad _ (h.toLatched hrun)

theorem alike_crcLowByte (x : Byte) {s : State} {q : Sequencer} (h : SequencerAlike s.sq q)
    (hp : s.sq.phase = .rxc1) : Alike (crcLowByte x s) (crcLowByte x (withSq q s)) := by
  have hrxcrc : q.rxcrc.extractLsb' 8 8 ++ x = s.sq.rxcrc.extractLsb' 8 8 ++ x := by rw [h.checking hp]
  exact alike_verdict (s := { s with sq := { s.sq with rxcrc := s.sq.rxcrc.extractLsb' 8 8 ++ x } })
    (q := { q with rxcrc := q.rxcrc.extractLsb' 8 8 ++ x }) { h with checking := fun _ => hrxcrc } hp

theorem alike_onAnswer (a : PortAnswer) {s : State} {q : Sequencer} (h : SequencerAlike s.sq q) :
    OutcomeAlike (onAnswer a s) (onAnswer a (withSq q s)) := by
  have hphase : (withSq q s).sq.phase = s.sq.phase := h.phase
  unfold onAnswer
  rw [hphase]
  cases hp : s.sq.phase with
  | idle => exact .refused _
  | flush => exact .next (alike_onFlush a h (by simp [hp]))
  | tx => exact .next (alike_onTx a h (by simp [hp]))
  | ack => exact .next (alike_onAck a h (by simp [hp]))
  | rxd =>
    exact .next (alike_readOrZero a h (by simp [hp]) fun x u r hu hr => alike_fieldByte x hr (hu.trans hp))
  | rxc0 =>
    exact .next (alike_readOrZero a h (by simp [hp]) fun x u r hu hr => alike_crcHighByte x hr (hu.trans hp))
  | rxc1 =>
    exact .next (alike_readOrZero a h (by simp [hp]) fun x u r hu hr => alike_crcLowByte x hr (hu.trans hp))

/-! ### The step -/

theorem alike_handle (e : Input) {s : State} {q : Sequencer} (h : SequencerAlike s.sq q) :
    OutcomeAlike (handle e s) (handle e (withSq q s)) := by
  cases e with
  | hostRead size off =>
    simp only [handle, hostRead]
    cases notAdmitted size off with
    | some f => exact .fault f
    | none => exact .next (alike_of_sq_unread (t := { s with readLog := s.readLog ++ [regRead s off] }) rfl h)
  | hostWrite size off v =>
    simp only [handle, hostWrite]
    cases notAdmitted size off with
    | some f => exact .fault f
    | none => exact alike_regWrite off v h
  | deviceByte b =>
    have hsame : deviceArrival b (withSq q s) = withSq q (deviceArrival b s) := by
      rw [deviceArrival_eq, deviceArrival_eq]
      rfl
    simp only [handle, hsame]
    exact .next (alike_of_sq_unread (by rw [deviceArrival_eq]) h)
  | portAnswer a => exact alike_onAnswer a h
  | reset sent rxq =>
    have hsame : applyReset sent rxq (withSq q s) = applyReset sent rxq s := by
      have hsent : abandonedPackets sent (withSq q s) = abandonedPackets sent s := by
        rw [abandonedPackets_eq, abandonedPackets_eq, show (withSq q s).sq.phase = s.sq.phase from h.phase]
        rfl
      rw [applyReset, applyReset, hsent]
      rfl
    simp only [handle, hsame]
    exact .next (.intro (applyReset sent rxq s).sq (sequencerAlike_of_idle rfl rfl rfl rfl rfl))

theorem alike_step {s t : State} (h : Alike s t) : OutcomeAlike (step s) (step t) := by
  obtain ⟨q, hq⟩ := h
  obtain ⟨hin, hs⟩ | ⟨e, rest, hin, hs⟩ := step_cases s
  · have ht : step (withSq q s) = .next (withSq q s) := by
      obtain ⟨-, ht⟩ | ⟨e, rest, hin', -⟩ := step_cases (withSq q s)
      · exact ht
      · cases hin.symm.trans hin'
    rw [hs, ht]
    exact .next (.intro q hq)
  · have ht : step (withSq q s) = handle e (withSq q { s with inputs := rest }) :=
      step_of_inputs_cons (s := withSq q s) hin
    rw [hs, ht]
    exact alike_handle e (s := { s with inputs := rest }) hq

theorem alike_runSteps (m : Nat) {s t : State} (h : Alike s t) :
    OutcomeAlike (runSteps m s) (runSteps m t) := by
  induction m generalizing s t with
  | zero => exact .next h
  | succ m ih =>
    rw [runSteps_succ, runSteps_succ]
    have hstep := alike_step h
    generalize step s = x, step t = y at hstep
    cases hstep with
    | next h => exact ih h
    | fault f => exact .fault f
    | refused r => exact .refused r

/-- No register shows a variable of the sequencer. -/
theorem sameView_of_alike {s t : State} (h : Alike s t) : SameView s t := by
  cases h
  exact ⟨fun _ => rfl, rfl, rfl, rfl, rfl⟩

theorem sameOutcome_of_outcomeAlike {x y : Host.Outcome State Fault Refusal} (h : OutcomeAlike x y) :
    SameOutcome x y := by
  cases h with
  | next h => exact sameView_of_alike h
  | fault | refused => rfl

end Sys2Proof.Machine

namespace Sys2Proof.Proofs

open Sys2Proof.Machine

/-- Settles O59, by induction on the steps: in IDLE the variables may differ, and from then on a rule that
reads one of them comes after a rule that writes it. -/
theorem unspecifiedVariablesAreInvisible : Obligations.UnspecifiedVariablesAreInvisible := by
  intro s q m _ hidle
  have halike : Alike s (withUnspecified q s) :=
    .intro
      { q with phase := s.sq.phase, k := s.sq.k, lastfail := s.sq.lastfail, lastinfo := s.sq.lastinfo }
      (sequencerAlike_of_idle hidle rfl rfl rfl rfl)
  exact sameOutcome_of_outcomeAlike (alike_runSteps m halike)

end Sys2Proof.Proofs
end

section
/-! SUPPORT and RESULTS. Whole runs of XWR: one attempt after another up to the first ack or the end of the
budget (O45, O46). -/

namespace Sys2Proof.Machine

/-! ### Runs move by move -/

theorem runSteps_of_step {s t : State} (m : Nat) (h : step s = .next t) :
    runSteps (m + 1) s = runSteps m t := by rw [runSteps_succ, h]

theorem runSteps_one {s t : State} (h : step s = .next t) : runSteps 1 s = .next t :=
  runSteps_of_step 0 h

/-- Two runs, one after the other. -/
theorem runSteps_trans {m k : Nat} {s t u : State} (h : runSteps m s = .next t)
    (h' : runSteps k t = .next u) : runSteps (m + k) s = .next u := (runSteps_add k h).trans h'

theorem step_of_portAnswer {s : State} {a : PortAnswer} {rest : List Input}
    (hin : s.inputs = .portAnswer a :: rest) : step s = onAnswer a { s with inputs := rest } :=
  step_of_inputs_cons hin

/-- A byte that arrives at an empty input buffer is kept: RX_DEPTH is at least 1. -/
theorem step_of_deviceByte {s : State} {b : Byte} {rest : List Input} (hrxq : s.port.rxq = [])
    (hin : s.inputs = .deviceByte b :: rest) :
    step s = .next { s with inputs := rest, port := { s.port with rxq := [b] } } := by
  have hroom : ([] : List Byte).length < s.build.rxDepth := Nat.succ_pos _
  refine (step_of_inputs_cons hin).trans (congrArg Host.Outcome.next ?_)
  rw [deviceArrival_eq, hrxq, if_pos hroom]
  rfl

/-- A byte has arrived at the empty input buffer, and the moves still to come are `rest`. -/
def byteArrived (b : Byte) (rest : List Input) (s : State) : State :=
  { s with inputs := rest, port := { s.port with rxq := [b] } }

/-- The device sends a byte and the port answers the read with it. -/
theorem runSteps_deliver {s t : State} {b : Byte} {rest : List Input} (hrxq : s.port.rxq = [])
    (hin : s.inputs = .deviceByte b :: .portAnswer .ok :: rest)
    (h : onAnswer .ok (byteArrived b rest s) = .next t) : runSteps 2 s = .next t :=
  (runSteps_of_step 1 (step_of_deviceByte hrxq hin)).trans (runSteps_one ((step_of_portAnswer rfl).trans h))

/-- The command's word is written to CMD and accepted. -/
theorem step_of_cmdMove {s : State} {i : Instr} {rest : List Input} (hbusy : s.status.busy = false)
    (hwf : i.wf = true) (hin : s.inputs = cmdMove i :: rest) :
    step s = exec i { s with inputs := rest } :=
  step_of_cmdWrite hin hbusy (decode_encode hwf)

theorem step_of_transportMove {s : State} {kind : Op} {kc : Byte} {n : BitVec 5} {rest : List Input}
    (hbusy : s.status.busy = false) (hn : n.toNat ≤ 16)
    (hin : s.inputs = cmdMove (kind.instr kc n) :: rest) :
    step s = .next (acceptTransport kind kc n (accept { s with inputs := rest })) :=
  (step_of_cmdMove hbusy ((kind.instr_wf kc n).trans (decide_eq_true hn)) hin).trans
    (exec_transport_of_idle (s := { s with inputs := rest }) kind kc hbusy hn)

theorem step_starts_transport {s : State} {kind : Op} {kc : Byte} {n : BitVec 5} {rest : List Input}
    (hbusy : s.status.busy = false) (hn : n.toNat ≤ 16) (hw : WidthsLegal s n.toNat)
    (hready : s.port.portcfg = .ready) (htries : s.cfg.tries ≠ 0)
    (hin : s.inputs = cmdMove (kind.instr kc n) :: rest) :
    step s = .next (firstAttempt kind kc n { s with inputs := rest }) :=
  (step_of_transportMove hbusy hn hin).trans
    (congrArg Host.Outcome.next
      (acceptTransport_of_budget (s := { s with inputs := rest }) kind kc hw hready htries))

theorem step_refuses_zeroBudget {s : State} {kind : Op} {kc : Byte} {n : BitVec 5} {rest : List Input}
    (hbusy : s.status.busy = false) (hn : n.toNat ≤ 16) (hw : WidthsLegal s n.toNat)
    (hready : s.port.portcfg = .ready) (htries : s.cfg.tries = 0)
    (hin : s.inputs = cmdMove (kind.instr kc n) :: rest) :
    step s = .next (endedAtAcceptance kind kc n .errExhausted 0 { s with inputs := rest }) :=
  (step_of_transportMove hbusy hn hin).trans
    (congrArg Host.Outcome.next
      (acceptTransport_of_zeroBudget (s := { s with inputs := rest }) kind kc hw hready htries))

/-! ### One attempt of a write -/

/-- The state in which the write request of an attempt is built; the flush has emptied the input buffer
(43_transport.md R104, R108). -/
def writeBuilt (txbuf : Vector Byte 68) (txlen : BitVec 7) (s : State) : State :=
  { s with
    crc := crcBytes 0x0000 (writeBody s s.sq.kc s.sq.n.toNat)
    txbuf := txbuf
    txlen := txlen
    port := { s.port with rxq := [] }
    txlog := { s.txlog with answers := s.txlog.answers ++ [.flushOk] }
    sq := { s.sq with phase := .tx } }

theorem onAnswer_flush_ok_of_xwr {s : State} (hr : Running s) (hp : s.sq.phase = .flush)
    (hop : s.sq.op = .xwr) :
    ∃ txbuf txlen, onAnswer .ok s = .next (writeBuilt txbuf txlen s)
      ∧ request (writeBuilt txbuf txlen s) = writeRequest s s.sq.kc s.sq.n.toNat := by
  have hflushed : Running (flushed s) := { hr with }
  obtain ⟨hreq, -, -⟩ := xwrBuild_bytes hflushed hp
  refine ⟨(xwrBuild (flushed s)).txbuf, (xwrBuild (flushed s)).txlen, ?_, hreq⟩
  have hcrc : (flushed s).crc = 0x0000 := (hr.fresh hp).2
  rw [onAnswer_flush_ok hp, buildRequest_of_xwr (s := flushed s) hop, xwrBuild_frame, hcrc]
  rfl

/-- The state in which the request of an attempt has been sent and recorded, and its ack is awaited
(43_transport.md R107). -/
def requestSent (txbuf : Vector Byte 68) (txlen : BitVec 7) (answers : List PortRecord)
    (rest : List Input) (s : State) : State :=
  { s with
    crc := crcBytes 0x0000 (writeBody s s.sq.kc s.sq.n.toNat)
    txbuf := txbuf
    txlen := txlen
    port := { s.port with rxq := [] }
    txlog :=
      { packets := s.txlog.packets ++ [writeRequest s s.sq.kc s.sq.n.toNat], answers := answers }
    inputs := rest
    sq := { s.sq with phase := .ack } }

theorem run_flush_and_write {s : State} {rest : List Input} (hr : Running s) (hp : s.sq.phase = .flush)
    (hop : s.sq.op = .xwr) (hin : s.inputs = .portAnswer .ok :: .portAnswer .ok :: rest) :
    ∃ txbuf txlen answers,
      runSteps 2 s = .next (requestSent txbuf txlen answers rest s)
        ∧ request (requestSent txbuf txlen answers rest s) = writeRequest s s.sq.kc s.sq.n.toNat := by
  obtain ⟨txbuf, txlen, hflush, hreq⟩ :=
    onAnswer_flush_ok_of_xwr (s := { s with inputs := .portAnswer .ok :: rest }) { hr with } hp hop
  have hreq' : request (writeBuilt txbuf txlen s) = writeRequest s s.sq.kc s.sq.n.toNat := hreq
  refine ⟨txbuf, txlen, s.txlog.answers ++ [.flushOk] ++ [.writeOk (request (writeBuilt txbuf txlen s))],
    ?_, hreq⟩
  refine (runSteps_of_step 1 ((step_of_portAnswer hin).trans hflush)).trans (runSteps_one ?_)
  refine (step_of_portAnswer rfl).trans ?_
  refine (onAnswer_tx_ok_of_xwr (s := { writeBuilt txbuf txlen s with inputs := rest }) rfl hop).trans ?_
  unfold requestSent
  rw [← hreq']
  rfl

/-- The verdict of an attempt by its ack (43_transport.md R110). -/
def ackVerdict (ack : Option Byte) (s : State) : State :=
  if ack = some 0xFF then finishOk s else failAttempt .nack (ackInfo ack) s

theorem onAck_of_byte {s : State} {b : Byte} {rest : List Byte} (hrxq : s.port.rxq = b :: rest) :
    onAck .ok s =
      ackVerdict (some b) (recordAnswer (.readByte b) { s with port := { s.port with rxq := rest } }) := by
  rw [onAck, streamRead1_ok_of_cons hrxq]
  by_cases hb : b = Config.ackSuccess
  · exact (if_pos hb).trans (if_pos (congrArg some hb)).symm
  · exact (if_neg hb).trans (if_neg fun h => hb (Option.some.inj h)).symm

theorem onAck_of_timeout {s : State} (hrxq : s.port.rxq = []) :
    onAck .ok s = ackVerdict none (recordAnswer .readTimeout s) := by
  rw [onAck, streamRead1_ok_of_nil hrxq]
  rfl

/-- The state in which the ack read has been answered. -/
def ackRead (answers : List PortRecord) (rest : List Input) (s : State) : State :=
  { s with
    port := { s.port with rxq := [] }
    txlog := { s.txlog with answers := answers }
    inputs := rest }

theorem run_ackMoves {s : State} {ack : Option Byte} {rest : List Input} (hp : s.sq.phase = .ack)
    (hrxq : s.port.rxq = []) (hin : s.inputs = ackMoves ack ++ rest) :
    ∃ answers, runSteps (ackMoves ack).length s = .next (ackVerdict ack (ackRead answers rest s)) := by
  cases ack with
  | none =>
    have hport : { s.port with rxq := [] } = s.port := by rw [← hrxq]
    refine ⟨s.txlog.answers ++ [.readTimeout], runSteps_one ?_⟩
    rw [ackRead, hport]
    refine (step_of_portAnswer hin).trans ((onAnswer_of_ack .ok (s := { s with inputs := rest }) hp).trans ?_)
    exact congrArg Host.Outcome.next (onAck_of_timeout hrxq)
  | some b =>
    refine ⟨s.txlog.answers ++ [.readByte b], runSteps_deliver hrxq hin ?_⟩
    refine (onAnswer_of_ack .ok (s := byteArrived b rest s) hp).trans ?_
    exact congrArg Host.Outcome.next (onAck_of_byte rfl)

/-- 43_transport.md R107: one attempt, from the wait for its flush to its verdict. -/
theorem run_writeAttempt {s : State} {ack : Option Byte} {rest : List Input} (hr : Running s)
    (hp : s.sq.phase = .flush) (hop : s.sq.op = .xwr) (hin : s.inputs = writeAttemptMoves ack ++ rest) :
    ∃ txbuf txlen answers,
      runSteps (writeAttemptMoves ack).length s =
          .next (ackVerdict ack (requestSent txbuf txlen answers rest s))
        ∧ request (requestSent txbuf txlen answers rest s) = writeRequest s s.sq.kc s.sq.n.toNat := by
  obtain ⟨txbuf, txlen, sent, hsend, hreq⟩ := run_flush_and_write hr hp hop hin
  obtain ⟨answers, hack⟩ :=
    run_ackMoves (s := requestSent txbuf txlen sent (ackMoves ack ++ rest) s) rfl rfl rfl
  have hlen : (writeAttemptMoves ack).length = 2 + (ackMoves ack).length := by
    rw [writeAttemptMoves, List.length_cons, List.length_cons]
    omega
  refine ⟨txbuf, txlen, answers, ?_, hreq⟩
  rw [hlen]
  exact runSteps_trans hsend hack

/-! ### A failed attempt -/

theorem failAttempt_of_budget {s : State} (why : LastFail) (info : Word) (h : s.sq.k ≠ s.cfg.tries) :
    failAttempt why info s = retried why info s := by
  obtain ⟨hk, -⟩ | ⟨-, hnext⟩ :=
    nextAttempt_cases { s with sq := { s.sq with lastfail := why, lastinfo := info } }
  · exact absurd hk h
  · exact hnext

theorem failAttempt_of_spent {s : State} {why : LastFail} (info : Word) (hwhy : why ≠ .io)
    (h : s.sq.k = s.cfg.tries) :
    failAttempt why info s =
      raiseErr .errExhausted info { s with sq := { s.sq with lastfail := why, lastinfo := info } } := by
  obtain ⟨-, hnext⟩ | ⟨hk, -⟩ :=
    nextAttempt_cases { s with sq := { s.sq with lastfail := why, lastinfo := info } }
  · exact hnext.trans (if_neg hwhy)
  · exact absurd h hk

/-! ### The attempts of a write -/

/-- `s` waits for the flush of an attempt of the XWR `kc`, `n` that was issued in `s0`, after `m` failed
ones. -/
structure WriteLoop (s0 : State) (kc : Byte) (n : BitVec 5) (m : Nat) (s : State) : Prop where
  running : Running s
  phase : s.sq.phase = .flush
  op : s.sq.op = .xwr
  code : s.sq.kc = kc
  count : s.sq.n = n
  k : s.sq.k.toNat = m + 1
  cfg : s.cfg = s0.cfg
  fval : s.fval = s0.fval
  fwid : s.fwid = s0.fwid
  data : s.data = s0.data
  bytes : s.bytes = s0.bytes
  res : s.res = s0.res
  status : s.status = { s0.status with busy := true, done := false, code := .ok, attempts := s.sq.k }
  packets : s.txlog.packets = s0.txlog.packets ++ List.replicate m (writeRequest s0 kc n.toNat)

section
variable {s0 : State} {kc : Byte} {n : BitVec 5} {m : Nat} {s : State}

theorem WriteLoop.body (h : WriteLoop s0 kc n m s) :
    writeBody s s.sq.kc s.sq.n.toNat = writeBody s0 kc n.toNat := by
  rw [h.code, h.count, writeBody_congr h.cfg h.fval h.fwid]

theorem WriteLoop.request (h : WriteLoop s0 kc n m s) :
    writeRequest s s.sq.kc s.sq.n.toNat = writeRequest s0 kc n.toNat := by
  rw [h.code, h.count, writeRequest_congr h.cfg h.fval h.fwid]

theorem WriteLoop.attempts (h : WriteLoop s0 kc n m s) : s.sq.k = BitVec.ofNat 8 (m + 1) := by
  rw [← h.k, BitVec.ofNat_toNat, BitVec.setWidth_eq]

/-- After fewer failed attempts than the budget allows, it is not spent. -/
theorem WriteLoop.k_ne_tries (h : WriteLoop s0 kc n m s) (hbudget : m + 1 < s0.cfg.tries.toNat) :
    s.sq.k ≠ s.cfg.tries := by
  intro heq
  have hk := h.k
  rw [heq, h.cfg] at hk
  omega

theorem WriteLoop.packets_requestSent (h : WriteLoop s0 kc n m s) (txbuf : Vector Byte 68)
    (txlen : BitVec 7) (answers : List PortRecord) (rest : List Input) :
    (requestSent txbuf txlen answers rest s).txlog.packets =
      s0.txlog.packets ++ List.replicate (m + 1) (writeRequest s0 kc n.toNat) := by
  rw [List.replicate_succ', ← List.append_assoc, ← h.packets, ← h.request]
  rfl

theorem writeLoop_firstAttempt (rest : List Input) (hn : n.toNat ≤ 16) (hw : WidthsLegal s n.toNat)
    (hready : s.port.portcfg = .ready) (htries : s.cfg.tries ≠ 0) :
    WriteLoop s kc n 0 (firstAttempt .xwr kc n { s with inputs := rest }) where
  running := .firstAttempt (s := { s with inputs := rest }) hn hw hready htries
  phase := rfl
  op := rfl
  code := rfl
  count := rfl
  k := rfl
  cfg := rfl
  fval := rfl
  fwid := rfl
  data := rfl
  bytes := rfl
  res := rfl
  status := rfl
  packets := (List.append_nil _).symm

/-- 43_transport.md R103: with a budget left, a failed attempt leads to the next one. -/
theorem WriteLoop.retried (h : WriteLoop s0 kc n m s) (info : Word) (hbudget : m + 1 < s0.cfg.tries.toNat)
    (txbuf : Vector Byte 68) (txlen : BitVec 7) (answers : List PortRecord) (rest : List Input) :
    WriteLoop s0 kc n (m + 1) (retried .nack info (requestSent txbuf txlen answers rest s)) := by
  have hne := h.k_ne_tries hbudget
  have hsent : Running (requestSent txbuf txlen answers rest s) :=
    { h.running with fresh := nofun, ackOp := fun _ => h.op, rxOp := nofun, field := nofun }
  exact
    { h with
      running := hsent.attemptOver (.again .nack info hne) nofun
      phase := rfl
      k := (toNat_add_one_of_ne h.running.budget hne).1.trans (congrArg (· + 1) h.k)
      status := by
        rw [Machine.retried]
        exact congrArg (fun t : Status => { t with attempts := s.sq.k + 1 }) h.status
      packets := h.packets_requestSent txbuf txlen answers rest }

/-- Every ack but 0xFF leads from one wait for a flush to the next, as long as the budget lasts. -/
theorem run_writeLoop {acks : List (Option Byte)} {rest : List Input} (h : WriteLoop s0 kc n m s)
    (hbudget : m + acks.length < s0.cfg.tries.toNat) (hacks : ∀ a ∈ acks, a ≠ some 0xFF)
    (hin : s.inputs = acks.flatMap writeAttemptMoves ++ rest) :
    ∃ t, runSteps (acks.flatMap writeAttemptMoves).length s = .next t
      ∧ WriteLoop s0 kc n (m + acks.length) t ∧ t.inputs = rest := by
  induction acks generalizing m s with
  | nil => exact ⟨s, rfl, h, hin⟩
  | cons a acks ih =>
    rw [List.length_cons] at hbudget
    rw [List.flatMap_cons, List.append_assoc] at hin
    obtain ⟨txbuf, txlen, answers, hrun, -⟩ := run_writeAttempt h.running h.phase h.op hin
    have hloop := h.retried (ackInfo a) (by omega) txbuf txlen answers (acks.flatMap writeAttemptMoves ++ rest)
    have hnack : ackVerdict a (requestSent txbuf txlen answers (acks.flatMap writeAttemptMoves ++ rest) s) =
        Machine.retried .nack (ackInfo a)
          (requestSent txbuf txlen answers (acks.flatMap writeAttemptMoves ++ rest) s) := by
      rw [ackVerdict, if_neg (hacks a (List.mem_cons_self ..))]
      exact failAttempt_of_budget .nack (ackInfo a) (h.k_ne_tries (by omega))
    rw [hnack] at hrun
    obtain ⟨t, hlater, ht, hrest⟩ :=
      ih hloop (by omega) (fun b hb => hacks b (List.mem_cons_of_mem _ hb)) rfl
    refine ⟨t, ?_, ?_, hrest⟩
    · rw [List.flatMap_cons, List.length_append]
      exact runSteps_trans hrun hlater
    · rw [List.length_cons, Nat.add_comm acks.length, ← Nat.add_assoc]
      exact ht

end

end Sys2Proof.Machine

namespace Sys2Proof.Proofs

open Sys2Proof.Machine

/-- Settles O45, by induction on the failed acks: each leads to the next attempt with the same request, and
0xFF ends the command. -/
theorem writeStopsAtFirstAck : Obligations.WriteStopsAtFirstAck := by
  intro s kc n acks rest hbusy hn hw hready hlen hacks hin
  have htries : s.cfg.tries ≠ 0 := by
    intro hzero
    rw [hzero] at hlen
    exact absurd hlen (Nat.not_lt_zero _)
  rw [List.flatMap_append, List.flatMap_singleton, List.append_assoc] at hin
  have haccept := step_starts_transport (kind := .xwr) hbusy hn hw hready htries hin
  obtain ⟨t, hrun, hloop, hrest⟩ :=
    run_writeLoop (writeLoop_firstAttempt (kc := kc) _ hn hw hready htries) (by omega) hacks rfl
  obtain ⟨txbuf, txlen, answers, hlast, hreq⟩ :=
    run_writeAttempt hloop.running hloop.phase hloop.op hrest
  rw [Nat.zero_add] at hloop
  refine ⟨finishOk (requestSent txbuf txlen answers rest t), ?run, ?status, hloop.running.noInfo, ?packets,
    ?crc, hreq.trans hloop.request, hloop.res, hloop.data, hloop.bytes, hloop.fval, hloop.fwid, hloop.cfg,
    rfl, rfl⟩
  case run =>
    rw [List.flatMap_append, List.flatMap_singleton, List.length_append]
    exact runSteps_trans (runSteps_one haccept) (runSteps_trans hrun hlast)
  case status =>
    rw [finishOk_status, ← hloop.attempts]
    exact congrArg (fun u : Status => { u with code := .ok, busy := false, done := true }) hloop.status
  case packets => exact hloop.packets_requestSent txbuf txlen answers rest
  case crc => exact congrArg (crcBytes 0x0000) hloop.body

/-- Settles O46: the last ack of the budget is no 0xFF either, and `nextAttempt` then finds the budget
spent. -/
theorem writeNeverAckedExhaustsBudget : Obligations.WriteNeverAckedExhaustsBudget := by
  intro s kc n acks rest hbusy hn hw hready hlen hacks hin
  obtain rfl | ⟨init, last, rfl⟩ := acks.eq_nil_or_concat'
  · have htries : s.cfg.tries = 0 := BitVec.eq_of_toNat_eq hlen.symm
    have haccept := step_refuses_zeroBudget (kind := .xwr) hbusy hn hw hready htries hin
    refine ⟨_, runSteps_one haccept, ?_, rfl, (List.append_nil _).symm, rfl, rfl, rfl, rfl, rfl, rfl, rfl, rfl⟩
    rw [htries]
    rfl
  rw [List.length_append, List.length_singleton] at hlen
  have htries : s.cfg.tries ≠ 0 := by
    intro hzero
    rw [hzero] at hlen
    exact absurd hlen (Nat.succ_ne_zero _)
  rw [List.flatMap_append, List.flatMap_singleton, List.append_assoc] at hin
  have haccept := step_starts_transport (kind := .xwr) hbusy hn hw hready htries hin
  obtain ⟨t, hrun, hloop, hrest⟩ :=
    run_writeLoop (writeLoop_firstAttempt (kc := kc) _ hn hw hready htries) (by omega)
      (fun a ha => hacks a (List.mem_append_left _ ha)) rfl
  obtain ⟨txbuf, txlen, answers, hlast, -⟩ :=
    run_writeAttempt hloop.running hloop.phase hloop.op hrest
  rw [Nat.zero_add] at hloop
  have hspent : t.sq.k = t.cfg.tries := by
    apply BitVec.eq_of_toNat_eq
    rw [hloop.k, hloop.cfg, hlen]
  have hend : ackVerdict last (requestSent txbuf txlen answers rest t) =
      raiseErr .errExhausted (ackInfo last)
        { requestSent txbuf txlen answers rest t with
          sq := { t.sq with phase := .ack, lastfail := .nack, lastinfo := ackInfo last } } := by
    rw [ackVerdict, if_neg (hacks last (List.mem_append_right _ (List.mem_singleton_self _)))]
    exact failAttempt_of_spent (ackInfo last) (by decide) hspent
  rw [hend] at hlast
  have hall := runSteps_trans (runSteps_one haccept) (runSteps_trans hrun hlast)
  rw [List.flatMap_append, List.flatMap_singleton, List.length_append]
  refine ⟨_, hall, ?status, ?errinfo, ?packets, hloop.res, hloop.data, hloop.bytes, hloop.fval, hloop.fwid,
    hloop.cfg, rfl, rfl⟩
  case status =>
    rw [← hloop.cfg, ← hspent]
    exact congrArg (fun u : Status => { u with code := .errExhausted, busy := false, done := true })
      hloop.status
  case errinfo => rw [List.getLast?_concat]; rfl
  case packets =>
    rw [List.length_append, List.length_singleton]
    exact hloop.packets_requestSent txbuf txlen answers rest

end Sys2Proof.Proofs
end

section
/-! SUPPORT and RESULTS. The attempts of an XRD, answer by answer; an XRD whose device stays silent never
verifies under FAIL_ATTEMPT (O48). -/

namespace Sys2Proof.Machine

/-! ### What any answer keeps -/

/-- An answer keeps what the attempt has sent and folded, and the operands of the state in which its
operation is recorded. -/
theorem onAnswer_keeps {a : PortAnswer} {s t : State} (hr : Running s) (hbytes : AttemptBytes s)
    (hphase : s.sq.phase ≠ .idle) (h : onAnswer a s = .next t) :
    AttemptBytes t ∧ ∃ rxq packets r, OperandsKept (answered s.inputs rxq packets r s) t := by
  obtain ⟨u, hu, heff⟩ := onAnswer_effect a hphase
  cases hu.symm.trans h
  obtain ⟨rxq, packets, r, -, -, hop⟩ := operated_cases a hphase
  have hrec : operated a s = answered s.inputs rxq packets r s := hop
  rw [hrec] at heff
  have hbytes' : AttemptBytes (answered s.inputs rxq packets r s) := { hbytes with }
  exact ⟨hbytes'.answerEffect { hr with } heff, rxq, packets, r, heff.operandsKept⟩

/-! ### The attempts of a read -/

/-- The requests a running read has sent: one for each attempt, the current one from its write on. -/
def requestsSent (s : State) : Nat :=
  match s.sq.phase with
  | .idle | .flush | .tx => s.sq.k.toNat - 1
  | _ => s.sq.k.toNat

theorem requestsSent_of_receiving {s : State} (h : s.sq.phase = .rxd ∨ s.sq.phase = .rxc0) :
    requestsSent s = s.sq.k.toNat := by
  obtain h | h := h <;> rw [requestsSent, h]

/-- `s` is a state of the running XRD `kc`, `n` that was issued in `s0`. -/
structure Reading (s0 : State) (kc : Byte) (n : BitVec 5) (s : State) : Prop where
  running : Running s
  attemptBytes : AttemptBytes s
  phase : s.sq.phase ≠ .idle
  op : s.sq.op = .xrd
  code : s.sq.kc = kc
  count : s.sq.n = n
  build : s.build = s0.build
  cfg : s.cfg = s0.cfg
  fval : s.fval = s0.fval
  fwid : s.fwid = s0.fwid
  data : s.data = s0.data
  bytes : s.bytes = s0.bytes
  res : s.res = s0.res
  status : s.status =
    { s0.status with busy := true, done := false, rvalid := false, code := .ok, attempts := s.sq.k }
  packets : s.txlog.packets = s0.txlog.packets ++ List.replicate (requestsSent s) (readRequest s0 kc)

section
variable {s0 : State} {kc : Byte} {n : BitVec 5} {s t : State}

theorem reading_firstAttempt (rest : List Input) (hn : n.toNat ≤ 16) (hw : WidthsLegal s n.toNat)
    (hready : s.port.portcfg = .ready) (htries : s.cfg.tries ≠ 0) :
    Reading s kc n (firstAttempt .xrd kc n { s with inputs := rest }) where
  running := .firstAttempt (s := { s with inputs := rest }) hn hw hready htries
  attemptBytes := attemptBytes_of_phase (.inr rfl)
  phase := nofun
  op := rfl
  code := rfl
  count := rfl
  build := rfl
  cfg := rfl
  fval := rfl
  fwid := rfl
  data := rfl
  bytes := rfl
  res := rfl
  status := rfl
  packets := (List.append_nil _).symm

theorem Reading.withInputs (h : Reading s0 kc n s) (rest : List Input) :
    Reading s0 kc n { s with inputs := rest } :=
  { h with
    running := { h.running with }
    attemptBytes := { h.attemptBytes with } }

theorem Reading.byteArrived (h : Reading s0 kc n s) (b : Byte) (rest : List Input) :
    Reading s0 kc n (byteArrived b rest s) :=
  { h with
    running := { h.running with }
    attemptBytes := { h.attemptBytes with } }

theorem Reading.inputs {a : PortAnswer} (h : Reading s0 kc n s) (hon : onAnswer a s = .next t) :
    t.inputs = s.inputs := by
  obtain ⟨-, rxq, packets, r, hkept⟩ := onAnswer_keeps h.running h.attemptBytes h.phase hon
  exact hkept.inputs

/-- What is left to say of an answer that goes on to another operation. -/
theorem Reading.onAnswer {a : PortAnswer} (h : Reading s0 kc n s) (hon : onAnswer a s = .next t)
    (hr : Running t) (hphase : t.sq.phase ≠ .idle) (hres : t.res = s.res)
    (hstatus : t.status = { s.status with attempts := t.sq.k })
    (hpackets : t.txlog.packets =
      s0.txlog.packets ++ List.replicate (requestsSent t) (readRequest s0 kc)) :
    Reading s0 kc n t := by
  obtain ⟨hbytes, rxq, packets, r, hkept⟩ := onAnswer_keeps h.running h.attemptBytes h.phase hon
  exact
    { running := hr
      attemptBytes := hbytes
      phase := hphase
      op := hkept.op.trans h.op
      code := hkept.kc.trans h.code
      count := hkept.n.trans h.count
      build := hkept.build.trans h.build
      cfg := hkept.cfg.trans h.cfg
      fval := hkept.fval.trans h.fval
      fwid := hkept.fwid.trans h.fwid
      data := hkept.data.trans h.data
      bytes := hkept.bytes.trans h.bytes
      res := hres.trans h.res
      status := hstatus.trans (congrArg (fun u : Status => { u with attempts := t.sq.k }) h.status)
      packets := hpackets }

/-- Within an attempt STATUS stays. -/
theorem Reading.attempts_of_same (h : Reading s0 kc n s) (hstatus : t.status = s.status)
    (hk : t.sq.k = s.sq.k) : t.status = { s.status with attempts := t.sq.k } := by
  rw [hstatus, hk, ← h.running.attempts]

/-- 43_transport.md R104, R113: the input buffer is empty and the request is built. -/
theorem Reading.onFlush (h : Reading s0 kc n s) (hp : s.sq.phase = .flush) :
    Reading s0 kc n (setPhase .tx (buildRequest (flushed s))) := by
  have hbuilt := (buildRequest_of_xrd (s := flushed s) h.op).trans (xrdBuild_frame (flushed s))
  have hflushed : Running (flushed s) := { h.running with }
  refine h.onAnswer (onAnswer_flush_ok hp) hflushed.buildRequest nofun ?_ ?_ ?_
  all_goals rw [hbuilt]
  · rfl
  · exact h.attempts_of_same rfl rfl
  · have hsent : requestsSent s = s.sq.k.toNat - 1 := by rw [requestsSent, hp]
    exact h.packets.trans (by rw [hsent]; rfl)

/-- 43_transport.md R114: the request goes out, and the response is awaited. -/
theorem Reading.onTx (h : Reading s0 kc n s) (hp : s.sq.phase = .tx) :
    Reading s0 kc n (startField 0 (written s)) := by
  have hphase := startField_phase 0 (written s)
  have hwritten : Running (written s) := { h.running with }
  have hreq : request s = readRequest s0 kc := by
    obtain ⟨hreq, -⟩ := h.attemptBytes.asking hp h.op
    rw [hreq, h.code, readRequest, readRequest, h.cfg]
  refine h.onAnswer (onAnswer_tx_ok_of_xrd hp h.op) (hwritten.startField h.op 0)
    (ne_idle_of_receiving hphase) ?res (h.attempts_of_same (startField_status 0 _) (startField_k 0 _)) ?packets
  case res => rw [startField_frame]; rfl
  case packets =>
    have hsent : requestsSent s = s.sq.k.toNat - 1 := by rw [requestsSent, hp]
    have hk : s.sq.k.toNat = s.sq.k.toNat - 1 + 1 :=
      (Nat.succ_pred (Nat.pos_iff_ne_zero.mp h.running.started)).symm
    have hbefore := h.packets
    rw [hsent] at hbefore
    rw [requestsSent_of_receiving hphase, startField_k, startField_frame]
    change s.txlog.packets ++ [request s] = _ ++ List.replicate s.sq.k.toNat _
    rw [hk, List.replicate_succ', ← List.append_assoc, ← hbefore, hreq]

/-- 43_transport.md R115: a byte of a field. -/
theorem Reading.onField {x : Byte} {late : Bool} (h : Reading s0 kc n s) (hp : s.sq.phase = .rxd)
    (hread : ReadYields s x late) : Reading s0 kc n (fieldByte x (byteRead x late s)) := by
  have hphase := fieldByte_phase (s := byteRead x late s) x hp
  have hr : Running (byteRead x late s) := { h.running with }
  refine h.onAnswer (onAnswer_rxd_ok hp hread) (hr.fieldByte hp x) (ne_idle_of_receiving hphase) ?res
    (h.attempts_of_same (fieldByte_status ..) (fieldByte_k ..)) ?packets
  case res => rw [fieldByte_frame]; rfl
  case packets =>
    rw [requestsSent_of_receiving hphase, fieldByte_k, fieldByte_frame]
    have hsent := requestsSent_of_receiving (.inl hp)
    exact h.packets.trans (by rw [hsent]; rfl)

/-- 43_transport.md R116: the high byte of the response's checksum. -/
theorem Reading.onHighByte {x : Byte} {late : Bool} (h : Reading s0 kc n s) (hp : s.sq.phase = .rxc0)
    (hread : ReadYields s x late) : Reading s0 kc n (crcHighByte x (byteRead x late s)) := by
  have hr : Running (crcHighByte x (byteRead x late s)) :=
    { h.running with fresh := nofun, ackOp := nofun, rxOp := fun _ => h.op, field := nofun }
  refine h.onAnswer (onAnswer_rxc0_ok hp hread) hr nofun rfl (h.attempts_of_same rfl rfl) ?packets
  case packets =>
    have hsent := requestsSent_of_receiving (.inr hp)
    exact h.packets.trans (by rw [hsent]; rfl)

/-! ### A device that stays silent -/

/-- `s` is a state of the XRD `kc`, `n` issued in `s0` under FAIL_ATTEMPT, and no byte has come since the last
flush. -/
structure Silent (s0 : State) (kc : Byte) (n : BitVec 5) (s : State) : Prop extends Reading s0 kc n s where
  policy : s0.build.timeoutPolicy = .failAttempt
  rxq : s.sq.phase ≠ .flush → s.port.rxq = []

/-- The XRD `kc` issued in `s0` has spent its budget without a result. -/
structure NeverVerified (s0 : State) (kc : Byte) (t : State) : Prop where
  status : t.status =
    { s0.status with
      busy := false, done := true, rvalid := false, code := .errExhausted, attempts := s0.cfg.tries }
  res : t.res = s0.res
  packets : t.txlog.packets =
    s0.txlog.packets ++ List.replicate s0.cfg.tries.toNat (readRequest s0 kc)
  phase : t.sq.phase = .idle

/-- An answer to a read in silence: the read goes on with one operation less to come, or it has spent its
budget. -/
def SilentNext (s0 : State) (kc : Byte) (n : BitVec 5) (s t : State) : Prop :=
  (Silent s0 kc n t ∧ opsLeft t + 1 = opsLeft s) ∨ (NeverVerified s0 kc t ∧ opsLeft s = 1)

theorem Silent.readYields (h : Silent s0 kc n s) (hp : s.sq.phase ≠ .flush) : ReadYields s 0x00 true :=
  .inl ⟨h.rxq hp, rfl, rfl⟩

theorem Silent.rxq_tail (h : Silent s0 kc n s) (hp : s.sq.phase ≠ .flush) : s.port.rxq.tail = [] :=
  congrArg List.tail (h.rxq hp)

theorem Silent.onFlush (h : Silent s0 kc n s) (hp : s.sq.phase = .flush) :
    SilentNext s0 kc n s (setPhase .tx (buildRequest (flushed s))) := by
  have hport := (operandsKept_buildRequest (flushed s)).port
  refine .inl ⟨⟨h.toReading.onFlush hp, h.policy, fun _ => ?_⟩, opsLeft_buildRequest (s := flushed s) hp⟩
  exact congrArg Port.rxq hport

theorem Silent.onTx (h : Silent s0 kc n s) (hp : s.sq.phase = .tx) :
    SilentNext s0 kc n s (startField 0 (written s)) := by
  have hport := (operandsKept_startField 0 (written s)).port
  refine .inl ⟨⟨h.toReading.onTx hp, h.policy, fun _ => ?_⟩, opsLeft_asked (s := written s) hp h.op⟩
  exact (congrArg Port.rxq hport).trans (h.rxq (by simp [hp]))

theorem Silent.onField (h : Silent s0 kc n s) (hp : s.sq.phase = .rxd) :
    SilentNext s0 kc n s (fieldByte 0x00 (byteRead 0x00 true s)) := by
  have hflush : s.sq.phase ≠ .flush := by simp [hp]
  have hport := (operandsKept_fieldByte 0x00 (byteRead 0x00 true s)).port
  have hr : Running (byteRead 0x00 true s) := { h.running with }
  refine .inl ⟨⟨h.toReading.onField hp (h.readYields hflush), h.policy, fun _ => ?_⟩,
    opsLeft_fieldByte hr hp 0x00⟩
  exact (congrArg Port.rxq hport).trans (h.rxq_tail hflush)

theorem Silent.onHighByte (h : Silent s0 kc n s) (hp : s.sq.phase = .rxc0) :
    SilentNext s0 kc n s (crcHighByte 0x00 (byteRead 0x00 true s)) := by
  have hflush : s.sq.phase ≠ .flush := by simp [hp]
  refine .inl ⟨⟨h.toReading.onHighByte hp (h.readYields hflush), h.policy, fun _ => h.rxq_tail hflush⟩, ?_⟩
  refine opsLeft_of_same_attempt (s := byteRead 0x00 true s)
    (t := crcHighByte 0x00 (byteRead 0x00 true s)) ?_ rfl h.phase nofun ?_
  · exact (AnswerEffect.high 0x00 (s.sq.tof || true) (s := byteRead 0x00 true s) hp).operandsKept
  · rw [opsInAttempt_of_rxc0 (s := byteRead 0x00 true s) hp, opsInAttempt_of_rxc1 rfl]

/-- 43_transport.md R117: a timed-out checksum byte keeps the attempt from verifying, whatever CRC holds. -/
theorem Silent.not_verified (h : Silent s0 kc n s) : verified (checksumRead 0x00 true s) = false := by
  refine Bool.eq_false_iff.mpr fun hv => ((verified_eq_true_iff _).mp hv).2 ⟨?_, Bool.or_true _⟩
  exact (congrArg (·.timeoutPolicy) h.build).trans h.policy

theorem Silent.onLowByte (h : Silent s0 kc n s) (hp : s.sq.phase = .rxc1) :
    ∃ t, Machine.onAnswer .ok s = .next t ∧ SilentNext s0 kc n s t := by
  have hpackets := h.packets
  rw [requestsSent, hp] at hpackets
  have hon := onAnswer_rxc1_of_nil hp (h.rxq (by simp [hp]))
  obtain ⟨hv, -⟩ | ⟨-, hfail⟩ := verdict_cases (checksumRead 0x00 true s)
  · exact absurd hv (Bool.eq_false_iff.mp h.not_verified)
  rw [hfail] at hon
  generalize (checksumRead 0x00 true s).sq.rxcrc ++ (checksumRead 0x00 true s).crc = info at hon
  by_cases hk : s.sq.k = s.cfg.tries
  · rw [failAttempt_of_spent (s := checksumRead 0x00 true s) info (by decide) hk] at hon
    refine ⟨_, hon, .inr ⟨⟨?status, h.res, ?packets, rfl⟩, ?left⟩⟩
    case status =>
      rw [← h.cfg, ← hk]
      exact congrArg (fun u : Status => { u with busy := false, done := true, code := .errExhausted })
        h.status
    case packets =>
      rw [← h.cfg, ← hk]
      exact hpackets
    case left => rw [opsLeft_of_running h.phase, opsInAttempt_of_rxc1 hp, hk, Nat.sub_self, Nat.zero_mul]
  · rw [failAttempt_of_budget (s := checksumRead 0x00 true s) .bad info hk] at hon
    have hr : Running (checksumRead 0x00 true s) := { h.running with }
    have hleft := opsLeft_retried hr h.phase .bad info hk
    rw [opsInAttempt_of_rxc1 (s := checksumRead 0x00 true s) hp] at hleft
    have hsent : requestsSent (retried .bad info (checksumRead 0x00 true s)) = s.sq.k.toNat :=
      Nat.sub_eq_of_eq_add (toNat_add_one_of_ne h.running.budget hk).1
    refine ⟨_, hon, .inl ⟨⟨h.onAnswer hon (hr.attemptOver (.again .bad info hk) nofun) nofun rfl rfl ?_,
      h.policy, absurd rfl⟩, hleft⟩⟩
    rw [hsent]
    exact hpackets

theorem Silent.next (h : Silent s0 kc n s) :
    ∃ t, Machine.onAnswer .ok s = .next t ∧ SilentNext s0 kc n s t := by
  cases hp : s.sq.phase with
  | idle => exact absurd hp h.phase
  | flush => exact ⟨_, onAnswer_flush_ok hp, h.onFlush hp⟩
  | tx => exact ⟨_, onAnswer_tx_ok_of_xrd hp h.op, h.onTx hp⟩
  | ack => cases h.op.symm.trans (h.running.ackOp hp)
  | rxd => exact ⟨_, onAnswer_rxd_ok hp (h.readYields (by simp [hp])), h.onField hp⟩
  | rxc0 => exact ⟨_, onAnswer_rxc0_ok hp (h.readYields (by simp [hp])), h.onHighByte hp⟩
  | rxc1 => exact h.onLowByte hp

/-- The read answers exactly the operations it has left, and ends without a result. -/
theorem Silent.run {m : Nat} {rest : List Input} (h : Silent s0 kc n s) (hleft : opsLeft s = m)
    (hin : s.inputs = List.replicate m (.portAnswer .ok) ++ rest) :
    ∃ t, runSteps m s = .next t ∧ NeverVerified s0 kc t ∧ t.inputs = rest := by
  induction m generalizing s with
  | zero => exact absurd hleft (opsLeft_pos h.phase).ne'
  | succ m ih =>
    have hin' : s.inputs = .portAnswer .ok :: (List.replicate m (.portAnswer .ok) ++ rest) := hin
    have htaken : Silent s0 kc n { s with inputs := List.replicate m (.portAnswer .ok) ++ rest } :=
      { h with toReading := h.toReading.withInputs _ }
    have hleft' : opsLeft { s with inputs := List.replicate m (.portAnswer .ok) ++ rest } = m + 1 := hleft
    obtain ⟨t, hon, ht⟩ := htaken.next
    have hinputs := htaken.inputs hon
    rw [runSteps_of_step m ((step_of_portAnswer hin').trans hon)]
    obtain ⟨hsilent, hops⟩ | ⟨hend, hops⟩ := ht
    · exact ih hsilent (Nat.succ.inj (hops.trans hleft')) hinputs
    · obtain rfl : m = 0 := Nat.succ.inj (hleft'.symm.trans hops)
      exact ⟨t, rfl, hend, hinputs⟩

end

end Sys2Proof.Machine

namespace Sys2Proof.Proofs

open Sys2Proof.Machine

/-- Settles O48, by induction on the operations left: each times out, and at the last checksum byte of an
attempt the timeout flag stands, so that the next attempt starts or the budget is spent. -/
theorem silentDeviceNeverVerifies : Obligations.SilentDeviceNeverVerifies := by
  intro s kc n rest hbusy hn hw hready hpolicy hin
  by_cases htries : s.cfg.tries = 0
  · have hzero : s.cfg.tries.toNat = 0 := congrArg BitVec.toNat htries
    rw [hzero, Nat.zero_mul] at hin ⊢
    have haccept := step_refuses_zeroBudget (kind := .xrd) hbusy hn hw hready htries hin
    refine ⟨_, runSteps_one haccept, ?_, rfl, (List.append_nil _).symm, rfl, rfl⟩
    rw [htries]
    rfl
  · have haccept := step_starts_transport (kind := .xrd) hbusy hn hw hready htries hin
    have hstart := reading_firstAttempt (kc := kc)
      (List.replicate (s.cfg.tries.toNat * (4 + widthSum s n.toNat)) (.portAnswer .ok) ++ rest)
      hn hw hready htries
    have hsilent : Silent s kc n _ := { hstart with policy := hpolicy, rxq := absurd rfl }
    have hleft := opsLeft_firstAttempt (s := { s with inputs := _ }) (kind := .xrd) (kc := kc) (n := n) htries
    obtain ⟨t, hrun, hend, hrest⟩ := hsilent.run hleft rfl
    exact ⟨t, runSteps_trans (runSteps_one haccept) hrun, hend.status, hend.res, hend.packets, hend.phase,
      hrest⟩

end Sys2Proof.Proofs
end

section
/-! RESULTS. An XRD whose device answers the fields and the matching checksum (O47). -/

namespace Sys2Proof.Machine

/-! ### The state of a response that is coming in -/

/-- `s` is a state of the XRD `kc`, `n` issued in `s0`, in its first attempt; the device has sent every byte
in time, and each has been read. -/
structure Receiving (s0 : State) (kc : Byte) (n : BitVec 5) (s : State) : Prop
    extends Reading s0 kc n s where
  rxq : s.port.rxq = []
  tof : s.sq.tof = false
  first : s.sq.k = 1

/-- The first `m` fields are staged with the values `vals` (43_transport.md R115). -/
def Staged (s0 : State) (vals : Nat → Word) (m : Nat) (s : State) : Prop :=
  ∀ q, q < m → stgAt s q = beJoin (beBytes (vals q) (fwidAt s0 q).toNat)

/-- The bytes `part` of field `i` have come, and another one is awaited. -/
structure FieldPart (s0 : State) (vals : Nat → Word) (i : Nat) (part : List Byte) (s : State) : Prop where
  phase : s.sq.phase = .rxd
  index : s.sq.i.toNat = i
  rxb : s.sq.rxb = part
  staged : Staged s0 vals i s

/-- The first `m` of `n` fields have come: the next one begins, or the checksum is awaited. -/
structure FieldsReceived (s0 : State) (vals : Nat → Word) (n m : Nat) (s : State) : Prop where
  staged : Staged s0 vals m s
  field : m < n → FieldPart s0 vals m [] s
  checksum : n ≤ m → s.sq.phase = .rxc0

theorem fieldsReceived_startField {s0 s : State} {vals : Nat → Word} {i : BitVec 5}
    (hstaged : Staged s0 vals i.toNat s) :
    FieldsReceived s0 vals s.sq.n.toNat i.toNat (startField i s) where
  staged := by rw [startField_frame]; exact hstaged
  field hlt := by
    rw [startField, if_pos hlt]
    exact ⟨rfl, rfl, rfl, hstaged⟩
  checksum hge := congrArg Sequencer.phase (startField_of_ge hge)

theorem FieldPart.staged_last {s0 s : State} {vals : Nat → Word} {i : Nat} {part : List Byte} {x : Byte}
    (h : FieldPart s0 vals i part s) (hi : i < 16)
    (hx : part ++ [x] = beBytes (vals i) (fwidAt s0 i).toNat) :
    Staged s0 vals (i + 1) (fieldStaged x s) := by
  intro q hq
  rw [stgAt, fieldStaged, h.index, h.rxb]
  obtain rfl | hbelow := Nat.eq_or_lt_of_le (Nat.le_of_lt_succ hq)
  · rw [Vector.getElem?_setIfInBounds_self_of_lt hi, hx]
    rfl
  · rw [Vector.getElem?_setIfInBounds_ne hbelow.ne']
    exact h.staged q hbelow

/-- The last byte of a field stages its value. -/
theorem FieldPart.last {s0 s : State} {vals : Nat → Word} {i : Nat} {part : List Byte} {x : Byte}
    (h : FieldPart s0 vals i part s) (hr : Running s) (hwidth : (fwidAt s i).toNat = part.length + 1)
    (hx : part ++ [x] = beBytes (vals i) (fwidAt s0 i).toNat) :
    FieldsReceived s0 vals s.sq.n.toNat (i + 1) (fieldByte x s) := by
  obtain ⟨hi, -, hj⟩ := hr.field h.phase
  have hn := hr.fields
  have hlast : ¬ s.sq.j.toNat + 1 < (fwidAt s s.sq.i.toNat).toNat := by
    rw [← hj, h.rxb, h.index, hwidth]
    exact lt_irrefl _
  have hnext : (s.sq.i + 1).toNat = i + 1 := (hr.counters h.phase).1.trans (congrArg (· + 1) h.index)
  have hstaged := h.staged_last (by have := h.index; omega) hx
  rw [fieldByte_of_last x hlast, ← hnext]
  exact fieldsReceived_startField (s := fieldStaged x s) (hnext ▸ hstaged)

/-- A byte of a field before the last joins those that have come. -/
theorem FieldPart.more {s0 s : State} {vals : Nat → Word} {i : Nat} {part : List Byte} (x : Byte)
    (h : FieldPart s0 vals i part s) (hr : Running s) (hwidth : part.length + 1 < (fwidAt s i).toNat) :
    FieldPart s0 vals i (part ++ [x]) (fieldByte x s) := by
  obtain ⟨-, -, hj⟩ := hr.field h.phase
  have hmore : s.sq.j.toNat + 1 < (fwidAt s s.sq.i.toNat).toNat := by
    rw [← hj, h.rxb, h.index]
    exact hwidth
  rw [fieldByte_of_more x hmore]
  exact ⟨h.phase, h.index, congrArg (· ++ [x]) h.rxb, h.staged⟩

section
variable {s0 : State} {kc : Byte} {n : BitVec 5} {vals : Nat → Word} {s : State}

theorem Reading.fwidAt_eq (h : Reading s0 kc n s) (i : Nat) : fwidAt s i = fwidAt s0 i := by
  rw [fwidAt, fwidAt, h.fwid]

/-! ### One byte -/

/-- The state in which a byte that arrived has been read. -/
def byteTaken (b : Byte) (rest : List Input) (s : State) : State := byteRead b false (byteArrived b rest s)

theorem readYields_byteArrived (b : Byte) (rest : List Input) (s : State) :
    ReadYields (byteArrived b rest s) b false := .inr ⟨rfl, rfl⟩

theorem Receiving.run_fieldByte {b : Byte} {rest : List Input} (h : Receiving s0 kc n s)
    (hp : s.sq.phase = .rxd) (hin : s.inputs = .deviceByte b :: .portAnswer .ok :: rest) :
    runSteps 2 s = .next (fieldByte b (byteTaken b rest s))
      ∧ Receiving s0 kc n (fieldByte b (byteTaken b rest s)) := by
  have hread := readYields_byteArrived b rest s
  have htof : (byteTaken b rest s).sq.tof = false := (Bool.or_false _).trans h.tof
  exact ⟨runSteps_deliver h.rxq hin (onAnswer_rxd_ok (s := byteArrived b rest s) hp hread),
    { (h.toReading.byteArrived b rest).onField hp hread with
      rxq := congrArg Port.rxq (operandsKept_fieldByte b (byteTaken b rest s)).port
      tof := (fieldByte_tof ..).trans htof
      first := (fieldByte_k ..).trans h.first }⟩

/-! ### The fields -/

/-- The bytes of a field that are still to come complete it, and stage its value. -/
theorem Receiving.run_field {i : Nat} {part bs : List Byte} {rest : List Input} (h : Receiving s0 kc n s)
    (hpart : FieldPart s0 vals i part s) (hne : bs ≠ [])
    (hbs : part ++ bs = beBytes (vals i) (fwidAt s0 i).toNat) (hin : s.inputs = deliverMoves bs ++ rest) :
    ∃ t, runSteps (2 * bs.length) s = .next t ∧ Receiving s0 kc n t
      ∧ FieldsReceived s0 vals n.toNat (i + 1) t ∧ t.inputs = rest := by
  induction bs generalizing part s with
  | nil => exact absurd rfl hne
  | cons b bs ih =>
    have hin' : s.inputs = .deviceByte b :: .portAnswer .ok :: (deliverMoves bs ++ rest) := hin
    obtain ⟨hrun, ht⟩ := h.run_fieldByte hpart.phase hin'
    have hinputs := (operandsKept_fieldByte b (byteTaken b (deliverMoves bs ++ rest) s)).inputs
    have hr : Running (byteTaken b (deliverMoves bs ++ rest) s) := { h.running with }
    have htaken : FieldPart s0 vals i part (byteTaken b (deliverMoves bs ++ rest) s) := { hpart with }
    have hwidth : (fwidAt s i).toNat = part.length + 1 + bs.length := by
      have hi : i < s.sq.n.toNat := hpart.index ▸ (h.running.field hpart.phase).1
      have hlen := length_beBytes_fwid (vals i) h.running.widths hi
      rw [h.fwidAt_eq, ← hbs, List.length_append, List.length_cons] at hlen
      rw [h.fwidAt_eq, ← hlen]
      omega
    cases bs with
    | nil =>
      have hreceived := htaken.last hr hwidth hbs
      exact ⟨_, hrun, ht, h.count ▸ hreceived, hinputs⟩
    | cons b' bs =>
      have hmoved := htaken.more b hr ((Nat.lt_add_of_pos_right (Nat.succ_pos _)).trans_eq hwidth.symm)
      obtain ⟨t, hlater, hrest⟩ :=
        ih ht hmoved (List.cons_ne_nil _ _) ((List.append_assoc ..).trans hbs) hinputs
      refine ⟨t, ?_, hrest⟩
      rw [List.length_cons, Nat.mul_succ, Nat.add_comm]
      exact runSteps_trans hrun hlater

theorem deliverMoves_append (xs ys : List Byte) :
    deliverMoves (xs ++ ys) = deliverMoves xs ++ deliverMoves ys := List.flatMap_append

theorem responseFields_succ (m : Nat) :
    responseFields s0 vals (m + 1) = responseFields s0 vals m ++ beBytes (vals m) (fwidAt s0 m).toNat := by
  rw [responseFields, List.range_succ, List.flatMap_append, List.flatMap_singleton]
  rfl

/-- The fields come in one after the other. -/
theorem Receiving.run_fields {m : Nat} {rest : List Input} (h : Receiving s0 kc n s)
    (h0 : FieldsReceived s0 vals n.toNat 0 s) (hm : m ≤ n.toNat)
    (hin : s.inputs = deliverMoves (responseFields s0 vals m) ++ rest) :
    ∃ t, runSteps (2 * (responseFields s0 vals m).length) s = .next t ∧ Receiving s0 kc n t
      ∧ FieldsReceived s0 vals n.toNat m t ∧ t.inputs = rest := by
  induction m generalizing rest with
  | zero => exact ⟨s, rfl, h, h0, hin⟩
  | succ m ih =>
    rw [responseFields_succ, deliverMoves_append, List.append_assoc] at hin
    obtain ⟨t, hrun, ht, hreceived, hinputs⟩ := ih (Nat.le_of_succ_le hm) hin
    have hne : beBytes (vals m) (fwidAt s0 m).toNat ≠ [] := by
      have hlt : m < t.sq.n.toNat := by rw [ht.count]; exact hm
      have hlen := length_beBytes_fwid (vals m) ht.running.widths hlt
      have hpos := fwidAt_pos ht.running.widths hlt
      rw [ht.fwidAt_eq] at hlen hpos
      exact List.ne_nil_of_length_pos (hlen.symm ▸ hpos)
    obtain ⟨u, hlater, hu⟩ := ht.run_field (hreceived.field hm) hne rfl hinputs
    refine ⟨u, ?_, hu⟩
    rw [responseFields_succ, List.length_append, Nat.mul_add]
    exact runSteps_trans hrun hlater

/-! ### The checksum -/

/-- CRC covers the header and the fields as the device sent them (43_transport.md R115). -/
theorem Receiving.crc_eq (h : Receiving s0 kc n s) (hp : s.sq.phase = .rxc0)
    (hstaged : Staged s0 vals n.toNat s) :
    s.crc = crcBytes 0x0000 (responseHeader s0 kc ++ responseFields s0 vals n.toNat) := by
  obtain ⟨-, hcrc⟩ := h.attemptBytes.checking (.inl hp)
  have hheader : responseHeader s kc = responseHeader s0 kc := by
    rw [responseHeader, responseHeader, h.cfg, h.build]
  have hfields : receivedBytes s n.toNat = responseFields s0 vals n.toNat := by
    refine List.flatMap_congr fun q hq => ?_
    have hlt : q < n.toNat := List.mem_range.mp hq
    have hlt' : q < s.sq.n.toNat := by rw [h.count]; exact hlt
    have hlen := length_beBytes_fwid (vals q) h.running.widths hlt'
    have hlegal : (fwidAt s q).toNat = 1 ∨ (fwidAt s q).toNat = 2 ∨ (fwidAt s q).toNat = 4 := by
      rcases h.running.widths q hlt' with e | e | e <;> rw [e] <;> decide
    rw [← hlen] at hlegal
    have hback := beBytes_beJoin hlegal
    rw [hlen] at hback
    rw [hstaged q hlt, ← h.fwidAt_eq, hback]
  rw [hcrc, h.code, h.count, hheader, hfields]

/-- The state in which the byte `hi` has come as the high byte of the checksum (43_transport.md R116). -/
def highByteTaken (hi : Byte) (answers : List PortRecord) (rest : List Input) (s : State) : State :=
  { s with
    port := { s.port with rxq := [] }
    txlog := { s.txlog with answers := answers }
    inputs := rest
    sq := { s.sq with rxcrc := hi ++ 0#8, tof := false, phase := .rxc1 } }

/-- The state in which the checksum `c` has come (43_transport.md R116). -/
def checksumTaken (c : Half) (answers : List PortRecord) (rest : List Input) (s : State) : State :=
  { s with
    port := { s.port with rxq := [] }
    txlog := { s.txlog with answers := answers }
    inputs := rest
    sq := { s.sq with rxcrc := c, tof := false, phase := .rxc1 } }

theorem Receiving.run_highByte {hi : Byte} {rest : List Input} (h : Receiving s0 kc n s)
    (hp : s.sq.phase = .rxc0) (hin : s.inputs = .deviceByte hi :: .portAnswer .ok :: rest) :
    ∃ answers, runSteps 2 s = .next (highByteTaken hi answers rest s) := by
  refine ⟨s.txlog.answers ++ [.readByte hi], runSteps_deliver h.rxq hin ?_⟩
  rw [onAnswer_rxc0_ok (s := byteArrived hi rest s) hp (readYields_byteArrived hi rest s)]
  have htof : (byteArrived hi rest s).sq.tof = false := h.tof
  rw [byteRead, htof]
  rfl

theorem run_lowByte (c : Half) (answers : List PortRecord) (rest : List Input) (s : State) :
    ∃ answers', runSteps 2 (highByteTaken (c.extractLsb' 8 8) answers
        (.deviceByte (c.extractLsb' 0 8) :: .portAnswer .ok :: rest) s) =
      .next (verdict (checksumTaken c answers' rest s)) := by
  have hhigh : (c.extractLsb' 8 8 ++ 0#8).extractLsb' 8 8 = c.extractLsb' 8 8 :=
    BitVec.extractLsb'_append_eq_left
  have hword : c.extractLsb' 8 8 ++ c.extractLsb' 0 8 = c :=
    (BitVec.extractLsb'_append_extractLsb'_eq_extractLsb' (by rfl)).trans BitVec.extractLsb'_eq_self
  refine ⟨answers ++ [.readByte (c.extractLsb' 0 8)], runSteps_deliver rfl rfl ?_⟩
  rw [onAnswer_rxc1_of_cons (lo := c.extractLsb' 0 8) rfl rfl, byteArrived, highByteTaken, checksumRead]
  simp only [hhigh, hword]
  rfl

/-- The command has ended with the staged values in RES (43_transport.md R118). -/
def responseReturned (c : Half) (answers : List PortRecord) (rest : List Input) (s : State) : State :=
  { s with
    status := { s.status with busy := false, done := true, rvalid := true, code := .ok }
    res := copyBelow s.sq.n.toNat s.sq.stg s.res
    port := { s.port with rxq := [] }
    txlog := { s.txlog with answers := answers }
    inputs := rest
    sq := { s.sq with rxcrc := c, tof := false, phase := .idle } }

/-- A matching checksum that comes in time verifies the attempt (43_transport.md R117). -/
theorem verdict_checksumTaken {c : Half} {answers : List PortRecord} {rest : List Input}
    (hcrc : s.crc = c) :
    verdict (checksumTaken c answers rest s) = responseReturned c answers rest s := by
  have hverified : verified (checksumTaken c answers rest s) = true :=
    (verified_eq_true_iff _).mpr ⟨hcrc, fun hlate => Bool.false_ne_true hlate.2⟩
  rw [verdict, if_pos hverified]
  rfl

theorem Receiving.run_checksum {c : Half} {rest : List Input} (h : Receiving s0 kc n s)
    (hp : s.sq.phase = .rxc0) (hcrc : s.crc = c)
    (hin : s.inputs = deliverMoves [c.extractLsb' 8 8, c.extractLsb' 0 8] ++ rest) :
    ∃ answers, runSteps 4 s = .next (responseReturned c answers rest s) := by
  have hin' : s.inputs = .deviceByte (c.extractLsb' 8 8) :: .portAnswer .ok ::
      .deviceByte (c.extractLsb' 0 8) :: .portAnswer .ok :: rest := hin
  obtain ⟨answers, hhigh⟩ := h.run_highByte hp hin'
  obtain ⟨answers', hlow⟩ := run_lowByte c answers rest s
  rw [verdict_checksumTaken hcrc] at hlow
  exact ⟨answers', runSteps_trans hhigh hlow⟩

/-! ### The whole command -/

/-- The input buffer is flushed and the request is built. -/
theorem Reading.run_flush {rest : List Input} (h : Reading s0 kc n s) (hp : s.sq.phase = .flush)
    (hin : s.inputs = .portAnswer .ok :: rest) :
    ∃ t, step s = .next t ∧ Reading s0 kc n t ∧ t.sq.phase = .tx ∧ t.port.rxq = [] ∧ t.sq.tof = s.sq.tof
      ∧ t.sq.k = s.sq.k ∧ t.inputs = rest := by
  have htaken := h.withInputs rest
  have hstep := (step_of_portAnswer hin).trans (onAnswer_flush_ok (s := { s with inputs := rest }) hp)
  have ht := htaken.onFlush hp
  rw [buildRequest_of_xrd (s := flushed { s with inputs := rest }) h.op, xrdBuild_frame] at hstep ht
  exact ⟨_, hstep, ht, rfl, rfl, rfl, rfl, rfl⟩

/-- The request goes out in the first attempt, and the response is awaited. -/
theorem Reading.run_write {rest : List Input} (h : Reading s0 kc n s) (hp : s.sq.phase = .tx)
    (hrxq : s.port.rxq = []) (htof : s.sq.tof = false) (hk : s.sq.k = 1)
    (hin : s.inputs = .portAnswer .ok :: rest) :
    ∃ t, step s = .next t ∧ Receiving s0 kc n t ∧ FieldsReceived s0 vals n.toNat 0 t ∧ t.inputs = rest := by
  have htaken := h.withInputs rest
  have hon := onAnswer_tx_ok_of_xrd (s := { s with inputs := rest }) hp h.op
  have hstart : FieldsReceived s0 vals s.sq.n.toNat 0 (startField 0 (written { s with inputs := rest })) :=
    fieldsReceived_startField (i := 0) (s := written { s with inputs := rest })
      fun _ hq => absurd hq (Nat.not_lt_zero _)
  have hsame := startField_frame 0 (written { s with inputs := rest })
  refine ⟨_, (step_of_portAnswer hin).trans hon, { htaken.onTx hp with rxq := ?_, tof := ?_, first := ?_ },
    h.count ▸ hstart, htaken.inputs hon⟩
  · exact (congrArg (fun u : State => u.port.rxq) hsame).trans hrxq
  · exact (congrArg (fun u : State => u.sq.tof) hsame).trans htof
  · exact (startField_k 0 _).trans hk

end

end Sys2Proof.Machine

namespace Sys2Proof.Proofs

open Sys2Proof.Machine

/-- Settles O47: the request goes out, the fields come in one after the other and are staged, and the
checksum of the response is the one CRC holds. -/
theorem readReturnsVerifiedResponse : Obligations.ReadReturnsVerifiedResponse := by
  intro s kc n vals rest hbusy hn hw hready htries fields c hfields hc hin
  subst hfields
  rw [deliverMoves_append, List.append_assoc] at hin
  have haccept := step_starts_transport (kind := .xrd) hbusy hn hw hready htries hin
  have hfirst := reading_firstAttempt (kc := kc)
    (.portAnswer .ok :: .portAnswer .ok :: (deliverMoves (responseFields s vals n.toNat)
      ++ (deliverMoves [c.extractLsb' 8 8, c.extractLsb' 0 8] ++ rest))) hn hw hready htries
  obtain ⟨t0, hflush, hasking, hp0, hrxq0, htof0, hk0, hin0⟩ := hfirst.run_flush rfl rfl
  obtain ⟨t1, hwrite, hreceiving, h0, hin1⟩ :=
    hasking.run_write (vals := vals) hp0 hrxq0 htof0 hk0 hin0
  obtain ⟨t2, hrun, ht, hreceived, hin2⟩ := hreceiving.run_fields h0 le_rfl hin1
  have hp := hreceived.checksum le_rfl
  have hcrc := (ht.crc_eq hp hreceived.staged).trans hc.symm
  obtain ⟨answers, hcheck⟩ := ht.run_checksum hp hcrc hin2
  have hres (i : Nat) : resAt (responseReturned c answers rest t2) i =
      if i < n.toNat then stgAt t2 i else resAt s i := by
    have hkept : resAt t2 i = resAt s i := by rw [resAt, resAt, ht.res]
    rw [← ht.count, ← hkept]
    exact getD_copyBelow ht.running.fields t2.sq.stg t2.res i
  refine ⟨responseReturned c answers rest t2, ?run, ?status, ht.running.noInfo, fun i hi => ?below,
    fun i hi => (hres i).trans (if_neg (Nat.not_lt.mpr hi)), ?packets, hcrc, ht.data, ht.bytes, ht.fval,
    ht.fwid, ht.cfg, rfl, rfl⟩
  case run =>
    have hall := runSteps_trans (runSteps_one haccept) (runSteps_trans (runSteps_one hflush)
      (runSteps_trans (runSteps_one hwrite) (runSteps_trans hrun hcheck)))
    rw [← hall]
    congr 1
    omega
  case status =>
    have hstatus := ht.status
    rw [ht.first] at hstatus
    exact congrArg (fun u : Status => { u with code := .ok, busy := false, done := true, rvalid := true })
      hstatus
  case packets =>
    have hsent := requestsSent_of_receiving (.inr hp)
    rw [ht.first] at hsent
    exact ht.packets.trans (by rw [hsent]; rfl)
  case below =>
    have hlegal : (fwidAt s i).toNat = 1 ∨ (fwidAt s i).toNat = 2 ∨ (fwidAt s i).toNat = 4 := by
      rcases hw i hi with e | e | e <;> rw [e] <;> decide
    have hbits : 8 * (fwidAt s i).toNat ≤ 32 := by omega
    rw [hres i, if_pos hi, hreceived.staged i hi, beJoin_beBytes _ hlegal, BitVec.toNat_setWidth,
      BitVec.toNat_setWidth]
    refine Nat.mod_eq_of_lt (Nat.lt_of_lt_of_le (Nat.mod_lt _ (Nat.two_pow_pos _)) ?_)
    exact Nat.pow_le_pow_right (by decide) hbits

end Sys2Proof.Proofs
end
